-- ==== Sys2Proof/Word.lean ====
section
/-! DEFINITION. The word types of CTRKS (spec/00_scope.md R5, R6). -/

namespace Sys2Proof

/-- One byte, the unit of every index space (R51). -/
abbrev Byte := BitVec 8

/-- One command word (R80). -/
abbrev Word := BitVec 32

/-- The 64-bit unsigned counter and everything staged for it (R5 `CTR_BITS`, R27). -/
abbrev Counter := BitVec 64

/-- One block of the external cipher: `BLOCK_BYTES` = 16 bytes, byte 0 first (R5). -/
abbrev Block := Vector Byte 16

end Sys2Proof
end

