-- ==== Sys2Proof/Syntax.lean ====
section
/-! DEFINITION. The eleven commands of spec/30_encoding.md R84, one constructor for each row of the opcode table.
An operand is the 8-bit field of the command word, used as it is (R85); which values of `idx` are legal is
`wellFormed`'s business (Sys2Proof/WellFormed.lean). -/

namespace Sys2Proof

/-- A command with its operands (R84, R85). -/
inductive Instr where
  /-- `LDN i, b`: load nonce byte (R110). -/
  | ldn (idx imm8 : Byte)
  /-- `LDC i, b`: load start-counter byte lane (R111). -/
  | ldc (idx imm8 : Byte)
  /-- `LDK i, b`: load key byte (R112). -/
  | ldk (idx imm8 : Byte)
  /-- `SETNL n`: set nonce buffer length (R113). -/
  | setnl (imm8 : Byte)
  /-- `SETKL n`: set key length (R114). -/
  | setkl (imm8 : Byte)
  /-- `CONSTRUCT nf`: construct a cipher from the staging registers; `nf` stands in the `idx` field (R135). -/
  | construct (nf : Byte)
  /-- `CURBLK i`: read one byte of the current block (R122). -/
  | curblk (idx : Byte)
  /-- `INC`: increment the counter (R123). -/
  | inc
  /-- `XORB b`: transform one byte (R139). -/
  | xorb (imm8 : Byte)
  /-- `STATUS`: read the status view (R160). -/
  | status
  /-- `DESTROY`: discard what was constructed (R161). -/
  | destroy
deriving DecidableEq, Repr

/-- The mnemonic of R84. -/
def Instr.mnemonic : Instr → String
  | .ldn _ _ => "LDN"
  | .ldc _ _ => "LDC"
  | .ldk _ _ => "LDK"
  | .setnl _ => "SETNL"
  | .setkl _ => "SETKL"
  | .construct _ => "CONSTRUCT"
  | .curblk _ => "CURBLK"
  | .inc => "INC"
  | .xorb _ => "XORB"
  | .status => "STATUS"
  | .destroy => "DESTROY"

end Sys2Proof
end

