-- ==== Sys2Proof/WellFormed.lean ====
section
/-! DEFINITION. Which terms of `Instr` are commands: the legal `idx` ranges of spec/30_encoding.md R84 and
spec/20_memory.md R51. -/

namespace Sys2Proof

/-- The operand `idx` (or `nf`) lies in the range R84 gives its command. -/
def wellFormed : Instr → Bool
  | .ldn idx _ => decide (idx.toNat < 8)
  | .ldc idx _ => decide (idx.toNat < 8)
  | .ldk idx _ => decide (idx.toNat < 32)
  | .setnl _ => true
  | .setkl _ => true
  | .construct nf => decide (nf.toNat < 2)
  | .curblk idx => decide (idx.toNat < 16)
  | .inc => true
  | .xorb _ => true
  | .status => true
  | .destroy => true

end Sys2Proof
end

