-- ==== Sys2Proof/Decode.lean ====
section
/-! DEFINITION. Decoding and encoding of command words (spec/30_encoding.md R81, R84 to R88). -/

namespace Sys2Proof

/-! ### The fields of a command word (R81) -/

/-- `w[31:24]`. -/
def opcodeOf (w : Word) : Byte := w.extractLsb' 24 8

/-- `w[23:16]`. -/
def idxOf (w : Word) : Byte := w.extractLsb' 16 8

/-- `w[15:8]`, which must be `0x00` in every command. -/
def zeroOf (w : Word) : Byte := w.extractLsb' 8 8

/-- `w[7:0]`. -/
def immOf (w : Word) : Byte := w.extractLsb' 0 8

/-- `opcode·2^24 + idx·2^16 + zero·2^8 + imm8` (R81). -/
def packWord (opcode idx zero imm8 : Byte) : Word :=
  BitVec.ofNat 32 (opcode.toNat * 2 ^ 24 + idx.toNat * 2 ^ 16 + zero.toNat * 2 ^ 8 + imm8.toNat)

/-! ### The opcode map (R84) -/

/-- One row of R84: the opcode, how many values of `idx` are legal (they are 0 up to that number less one),
whether `imm8` is an operand (if not it must be `0x00`), and the command. -/
structure CommandRow where
  opcode : Byte
  idxCount : Nat
  takesImm : Bool
  make : Byte → Byte → Instr

/-- R84, row by row. -/
def commandRows : List CommandRow :=
  [ ⟨0x01, 8, true, fun idx imm8 => .ldn idx imm8⟩,
    ⟨0x02, 8, true, fun idx imm8 => .ldc idx imm8⟩,
    ⟨0x03, 32, true, fun idx imm8 => .ldk idx imm8⟩,
    ⟨0x04, 1, true, fun _ imm8 => .setnl imm8⟩,
    ⟨0x05, 1, true, fun _ imm8 => .setkl imm8⟩,
    ⟨0x10, 2, false, fun idx _ => .construct idx⟩,
    ⟨0x11, 16, false, fun idx _ => .curblk idx⟩,
    ⟨0x12, 1, false, fun _ _ => .inc⟩,
    ⟨0x20, 1, true, fun _ imm8 => .xorb imm8⟩,
    ⟨0x30, 1, false, fun _ _ => .status⟩,
    ⟨0x31, 1, false, fun _ _ => .destroy⟩ ]

/-- Why a word is illegal: the cases (a) to (d) of R88. They all have the same outcome. -/
inductive Illegal where
  /-- (a) the opcode is not one of the eleven. -/
  | opcode
  /-- (b) the `zero` field is not `0x00`. -/
  | zeroField
  /-- (c) `idx` is outside the legal range of its command. -/
  | idxRange
  /-- (d) `imm8` is not `0x00` in a command that takes none. -/
  | immNotZero
deriving DecidableEq, Repr

/-- Decoding is total (R87): a word is one command with its operands, or it is illegal. -/
def decode (w : Word) : Except Illegal Instr :=
  if zeroOf w ≠ 0 then .error .zeroField
  else
    match commandRows.find? (fun r => r.opcode == opcodeOf w) with
    | none => .error .opcode
    | some r =>
      if r.idxCount ≤ (idxOf w).toNat then .error .idxRange
      else if r.takesImm = false ∧ immOf w ≠ 0 then .error .immNotZero
      else .ok (r.make (idxOf w) (immOf w))

/-! ### Encoding (R81, R84) -/

/-- The command word of a command. Of a term that is not well formed it is an illegal word (R88(c)). -/
def encode : Instr → Word
  | .ldn idx imm8 => packWord 0x01 idx 0 imm8
  | .ldc idx imm8 => packWord 0x02 idx 0 imm8
  | .ldk idx imm8 => packWord 0x03 idx 0 imm8
  | .setnl imm8 => packWord 0x04 0 0 imm8
  | .setkl imm8 => packWord 0x05 0 0 imm8
  | .construct nf => packWord 0x10 nf 0 0
  | .curblk idx => packWord 0x11 idx 0 0
  | .inc => packWord 0x12 0 0 0
  | .xorb imm8 => packWord 0x20 0 0 imm8
  | .status => packWord 0x30 0 0 0
  | .destroy => packWord 0x31 0 0 0

/-! ### The exact patterns (R86) -/

/-- One row of R86: `w` is the command exactly when `w AND mask = value` (the spec's column `match`). -/
structure Pattern where
  mnemonic : String
  value : Word
  mask : Word

/-- R86, row by row. The decoder does not use it: a statement says that the two agree (R87). -/
def patterns : List Pattern :=
  [ ⟨"LDN", 0x01000000, 0xFFF8FF00⟩,
    ⟨"LDC", 0x02000000, 0xFFF8FF00⟩,
    ⟨"LDK", 0x03000000, 0xFFE0FF00⟩,
    ⟨"SETNL", 0x04000000, 0xFFFFFF00⟩,
    ⟨"SETKL", 0x05000000, 0xFFFFFF00⟩,
    ⟨"CONSTRUCT", 0x10000000, 0xFFFEFFFF⟩,
    ⟨"CURBLK", 0x11000000, 0xFFF0FFFF⟩,
    ⟨"INC", 0x12000000, 0xFFFFFFFF⟩,
    ⟨"XORB", 0x20000000, 0xFFFFFF00⟩,
    ⟨"STATUS", 0x30000000, 0xFFFFFFFF⟩,
    ⟨"DESTROY", 0x31000000, 0xFFFFFFFF⟩ ]

/-- `(w AND mask) = match` (R86). -/
abbrev Pattern.holds (p : Pattern) (w : Word) : Prop := w &&& p.mask = p.value

/-! ### The host's question -/

/-- The command whose bits are `w`, numbered as the opcode table numbers them: bit 0 is the least significant bit
of the one 32-bit word; the bits from `nbits` on are 0. There is no command longer than 32 bits (R80). -/
def decodeTableWord (nbits w : Nat) : Option Instr :=
  if nbits ≤ 32 then (decode (BitVec.ofNat 32 (w % 2 ^ nbits))).toOption else none

end Sys2Proof
end

