-- ==== Sys2Proof/Config.lean ====
section
/-! DEFINITION. The two OPEN parameters of CTRKS (spec/00_scope.md R5, R10, R39). Neither constant has a body:
a statement about the model holds for every value of them. -/

namespace Sys2Proof.Config

/-- `BlkEnc(k, b)`, the external block-encrypt capability (R10): a total function of the key bytes and the block,
with no state and no failure. Nothing else may be assumed of it. Log entry 4. -/
opaque blkEnc : List Byte → Block → Block

/-- Which key lengths other than 16 the external cipher supports. It counts only for lengths in 1..32:
`Machine.keyLenSupported` makes `KEYLENS` of it (R5). Log entry 5. -/
opaque otherKeyLen : Byte → Bool

end Sys2Proof.Config
end

