-- ==== Sys2Proof/Machine/State.lean ====
section
/-! DEFINITION. The state of one CTRKS block (spec/10_state.md R20), what stands on its three ports, the state
after reset (spec/70_reset_and_hazards.md R200), and the reasons a step can stop. -/

namespace Sys2Proof.Machine

/-- One response (R82): `r[15:8] = code`, `r[7:0] = data`. -/
structure Response where
  code : Byte
  data : Byte
deriving DecidableEq, Repr

/-- One exchange on the block-cipher port (R64): the request (`keylen`, the key bytes, the block) and the reply. -/
structure Exchange where
  keylen : Byte
  key : List Byte
  block : Block
  out : Block
deriving DecidableEq, Repr

/-- The 13 registers of R20 under the spec's names, and the three ports.
The ports are the model's own fields (log entries 1 and 6): they are no registers of the block. -/
structure State where
  /-- `N[0..8)`, nonce staging (R21). -/
  n : Vector Byte 8
  /-- `CIN`, start-counter staging (R22). -/
  cin : Counter
  /-- `K[0..32)`, key staging (R23). -/
  k : Vector Byte 32
  /-- `NLEN`, nonce-length staging (R24). -/
  nlen : Byte
  /-- `KLEN`, key-length staging (R25). -/
  klen : Byte
  /-- `CB[0..16)`, the counter block (R26). -/
  cb : Block
  /-- `CTR`, the counter (R27). -/
  ctr : Counter
  /-- `KEY[0..32)`, the copy of the key (R29). -/
  key : Vector Byte 32
  /-- `KEYLEN`, the length of the key copy (R30). -/
  keylen : Byte
  /-- `KS[0..16)`, the last keystream block generated (R31). -/
  ks : Block
  /-- `KSLEN`, how many bytes of `KS` are not yet consumed, 0..16; 17..31 are never taken (R32). Log entry 7. -/
  kslen : Fin 17
  /-- `VALID`: a constructed cipher exists; the lifecycle mode is READY (R33, R182). -/
  valid : Bool
  /-- `ERR`, the errors of the last `CONSTRUCT`: bit 0 `InvalidNonce`, bit 1 `InvalidKey` (R34). -/
  err : BitVec 2
  /-- The command port: the words the host has issued and the block has not taken, oldest first (R61). -/
  commands : List Word
  /-- The response port: the responses given so far, oldest first (R82). -/
  responses : List Response
  /-- The block-cipher port: the exchanges made so far, oldest first (R64). -/
  exchanges : List Exchange
deriving DecidableEq, Repr

/-- Reasons to stop with a fault: there is none. Every command word, in every state, has an outcome that is a next
state with a response (R186), and the block-cipher port always completes (R65). Log entry 9. -/
inductive Fault where
deriving DecidableEq, Repr

/-- Reasons to stop with no meaning. -/
inductive Refusal where
  /-- Raised by an arm of `exec` whose command has no meaning yet; no arm is such. Safe: the model stops. -/
  | notModelled (mnemonic : String)
deriving DecidableEq, Repr

/-- The state after the reset event: every register is zero (R20, R200); nothing stands on a port (log entries 1, 6). -/
def State.reset : State where
  n := Vector.replicate 8 0
  cin := 0
  k := Vector.replicate 32 0
  nlen := 0
  klen := 0
  cb := Vector.replicate 16 0
  ctr := 0
  key := Vector.replicate 32 0
  keylen := 0
  ks := Vector.replicate 16 0
  kslen := 0
  valid := false
  err := 0
  commands := []
  responses := []
  exchanges := []

end Sys2Proof.Machine
end

