-- ==== Sys2Proof/Machine/Operands.lean ====
section
/-! DEFINITION. Operand forms and byte orders: indices (spec/20_memory.md R51), the nonce form (R85, R135), the two
integer encodings (spec/00_scope.md R8), the byte lanes of `CIN` (R22), the halves of the counter block (R26), the
key bytes given to the cipher (R30) and the front of the keystream buffer (R32). -/

namespace Sys2Proof.Machine

/-! ### Indices -/

/-- An `idx` operand as an index into a space of `size` elements; `none` outside the legal range (R51). -/
def indexInto (size : Nat) (idx : Byte) : Option (Fin size) :=
  if h : idx.toNat < size then some ⟨idx.toNat, h⟩ else none

/-- The two ways the nonce can be given (R12, R135). -/
inductive NonceForm where
  /-- `nf = 0`: a 64-bit value. -/
  | value
  /-- `nf = 1`: a byte buffer of length `NLEN`. -/
  | buffer
deriving DecidableEq, Repr

/-- The nonce form an `nf` operand selects (R85); `none` for any other value. -/
def nonceForm (nf : Byte) : Option NonceForm :=
  if nf = 0 then some .value else if nf = 1 then some .buffer else none

/-! ### Integer encodings (R8) -/

/-- `be64(v)`: `b[j] = v[63-8j : 56-8j]`, most significant byte first. -/
def be64 (v : Counter) : Vector Byte 8 :=
  #v[v.extractLsb' 56 8, v.extractLsb' 48 8, v.extractLsb' 40 8, v.extractLsb' 32 8,
     v.extractLsb' 24 8, v.extractLsb' 16 8, v.extractLsb' 8 8, v.extractLsb' 0 8]

/-- `le64(v)`: `b[i] = v[8i+7 : 8i]`, least significant byte first. -/
def le64 (v : Counter) : Vector Byte 8 :=
  #v[v.extractLsb' 0 8, v.extractLsb' 8 8, v.extractLsb' 16 8, v.extractLsb' 24 8,
     v.extractLsb' 32 8, v.extractLsb' 40 8, v.extractLsb' 48 8, v.extractLsb' 56 8]

/-- `unbe64`, the inverse of `be64` (R8). -/
def unbe64 (b : Vector Byte 8) : Counter :=
  b[0] ++ b[1] ++ b[2] ++ b[3] ++ b[4] ++ b[5] ++ b[6] ++ b[7]

/-- `unle64`, the inverse of `le64` (R8). -/
def unle64 (b : Vector Byte 8) : Counter :=
  b[7] ++ b[6] ++ b[5] ++ b[4] ++ b[3] ++ b[2] ++ b[1] ++ b[0]

/-! ### Byte lanes of `CIN` (R22, R57) -/

/-- Byte lane `i` of a 64-bit number, of weight `256^i`. -/
def lane (v : Counter) (i : Fin 8) : Byte := v.extractLsb' (8 * i.val) 8

/-- `v[8i+7 : 8i] <- b`; the other 56 bits are kept (R111). -/
def setLane (v : Counter) (i : Fin 8) (b : Byte) : Counter :=
  (v &&& ~~~((0xFF : Counter) <<< (8 * i.val))) ||| (b.setWidth 64 <<< (8 * i.val))

/-! ### The counter block (R26) -/

/-- `nonce ‖ counter`: bytes 0 to 7 and bytes 8 to 15 of a block. -/
def joinBlock (nonce counter : Vector Byte 8) : Block :=
  #v[nonce[0], nonce[1], nonce[2], nonce[3], nonce[4], nonce[5], nonce[6], nonce[7],
     counter[0], counter[1], counter[2], counter[3], counter[4], counter[5], counter[6], counter[7]]

/-- The nonce half, `CB[0..8)`. -/
def nonceHalf (b : Block) : Vector Byte 8 := #v[b[0], b[1], b[2], b[3], b[4], b[5], b[6], b[7]]

/-! ### The key (R23, R29, R30) -/

/-- `X[0..len)` of a 32-byte register, byte 0 first. A length above 32 gives all 32 bytes (log entry 12). -/
def keyBytes (x : Vector Byte 32) (len : Byte) : List Byte := x.toList.take len.toNat

/-- `K[0..len)`, followed by `0x00` up to 32 bytes: what `CONSTRUCT` puts into `KEY` (R135). -/
def keyCopy (k : Vector Byte 32) (len : Byte) : Vector Byte 32 :=
  ⟨((keyBytes k len).rightpad 32 0).toArray, by simp [keyBytes]⟩

/-- `len ∈ KEYLENS`: 16 is a member, every member lies in 1..32, and nothing else is assumed of the set (R5).
Log entry 5. -/
def keyLenSupported (len : Byte) : Bool :=
  len == 16 || (decide (1 ≤ len.toNat) && decide (len.toNat ≤ 32) && Config.otherKeyLen len)

/-! ### The keystream buffer (R32) -/

/-- The index of the front byte, `16 - KSLEN`. It is in 0..15 whenever `KSLEN ≥ 1`, the only case in which it is
used (R141(b)); for `KSLEN = 0` it is 0 (log entry 11). -/
def frontIndex (kslen : Fin 17) : Fin 16 := Fin.ofNat 16 (16 - kslen.val)

/-- `KSLEN - 1`, the length after a pop; used only when `KSLEN ≥ 1` (R141(b)). -/
def popped (kslen : Fin 17) : Fin 17 := ⟨kslen.val - 1, by omega⟩

end Sys2Proof.Machine
end

