-- ==== Sys2Proof/Machine/Flags.lean ====
section
/-! DEFINITION. The bits of a response code (spec/30_encoding.md R83), the two checks of `CONSTRUCT`
(spec/42_keystream_cipher.md R136), `ERR` (spec/10_state.md R34) and the status view (R35). -/

namespace Sys2Proof.Machine

/-! ### Response codes (R83) -/

/-- The command was carried out (R82). -/
def codeOk : Byte := 0x00
/-- `E_NONCE`, the source's `InvalidNonce` (R171). -/
def eNonce : Byte := 0x01
/-- `E_KEY`, the source's `InvalidKey` (R172). -/
def eKey : Byte := 0x02
/-- `E_STATE`: the command needs a constructed cipher and `VALID = 0` (R174). -/
def eState : Byte := 0x04
/-- `E_ILLEGAL`: the word is not a legal encoding (R175). -/
def eIllegal : Byte := 0x08

/-- The response as the 16-bit word of R82, `code·2^8 + data`. -/
def Response.word (r : Response) : BitVec 16 := r.code ++ r.data

/-! ### The checks of `CONSTRUCT` -/

/-- `E_NONCE` applies: buffer form and `NLEN < 8` (R136(a)). -/
def nonceTooShort (form : NonceForm) (nlen : Byte) : Bool :=
  decide (form = .buffer) && decide (nlen.toNat < 8)

/-- The error mask of R135: both checks are always made and both bits are reported (R136(c)).
`supported` says which key lengths are in `KEYLENS`. -/
def constructErrors (supported : Byte → Bool) (form : NonceForm) (s : State) : Byte :=
  (if nonceTooShort form s.nlen then eNonce else 0) ||| (if supported s.klen then 0 else eKey)

/-- `e[1:0]`, what `ERR` keeps of the mask (R135, R34). -/
def errBits (e : Byte) : BitVec 2 := e.extractLsb' 0 2

/-! ### The status view -/

/-- `KSLEN·8 + ERR[1]·4 + ERR[0]·2 + VALID` (R160, R35). -/
def statusView (s : State) : Byte :=
  BitVec.ofNat 8 (s.kslen.val * 8 + s.err.toNat * 2 + s.valid.toNat)

end Sys2Proof.Machine
end

