-- ==== Sys2Proof/Machine/Ops.lean ====
section
/-! DEFINITION. The named operations every command is made of: the three ports, responding and raising
(spec/00_scope.md R9), the writes to the staging registers, the micro-operations `CBB_BUILD`, `CBB_INC` and `REFILL`
(R120, R121, R137), and the clearing and building of what `CONSTRUCT` constructs (R135).
Raising an error is this block's whole exception mechanism: nothing is saved and control goes to the host
(spec/60_exceptions.md R179, R180), and there is no return from it (R181). -/

namespace Sys2Proof.Machine

/-! ### The command port and the response port -/

/-- Takes the oldest command word from the command port; `none` when the host has issued nothing more (R61). -/
def State.takeCommand (s : State) : Option (Word × State) :=
  match s.commands with
  | [] => none
  | w :: rest => some (w, { s with commands := rest })

/-- One response on the response port (R82). -/
def State.answer (s : State) (r : Response) : State := { s with responses := s.responses ++ [r] }

/-- `respond(data)`: the command ends with code `0x00` (R9). -/
def State.respond (s : State) (data : Byte) : State := s.answer ⟨codeOk, data⟩

/-- `raise code`: the command ends with that code and `data = 0x00`; no register is written (R9, R179). -/
def State.raise (s : State) (code : Byte) : State := s.answer ⟨code, 0⟩

/-- A command that needs a constructed cipher: `E_STATE` while `VALID = 0` (R174, R182). -/
def State.whenReady (s : State) (action : State → State) : State :=
  if s.valid then action s else s.raise eState

/-! ### Staging registers (R110 to R114) -/

/-- `N[i] <- b`. -/
def State.setN (s : State) (i : Fin 8) (b : Byte) : State := { s with n := s.n.set i.val b i.isLt }

/-- `CIN[8i+7 : 8i] <- b`. -/
def State.setCinLane (s : State) (i : Fin 8) (b : Byte) : State := { s with cin := setLane s.cin i b }

/-- `K[i] <- b`. -/
def State.setK (s : State) (i : Fin 32) (b : Byte) : State := { s with k := s.k.set i.val b i.isLt }

/-- `NLEN <- b`. -/
def State.setNlen (s : State) (b : Byte) : State := { s with nlen := b }

/-- `KLEN <- b`. -/
def State.setKlen (s : State) (b : Byte) : State := { s with klen := b }

/-! ### Clearing and building -/

/-- `VALID <- 0` and zeros in `CB`, `CTR`, `KEY`, `KEYLEN`, `KS`, `KSLEN` (R135, R161, R173). -/
def State.discard (s : State) : State :=
  { s with
    valid := false
    cb := Vector.replicate 16 0
    ctr := 0
    key := Vector.replicate 32 0
    keylen := 0
    ks := Vector.replicate 16 0
    kslen := 0 }

/-- `ERR <- e`. -/
def State.setErr (s : State) (e : BitVec 2) : State := { s with err := e }

/-- `CBB_BUILD(nb, c)` (R120). -/
def State.cbbBuild (s : State) (nb : Vector Byte 8) (c : Counter) : State :=
  { s with cb := joinBlock nb (be64 c), ctr := c }

/-- `KEY[0..KLEN) <- K[0..KLEN)`, the rest `0x00`; `KEYLEN <- KLEN` (R135, R29). -/
def State.takeKey (s : State) : State := { s with key := keyCopy s.k s.klen, keylen := s.klen }

/-- `VALID <- 1`. -/
def State.setValid (s : State) : State := { s with valid := true }

/-! ### The counter and the keystream -/

/-- `CBB_INC`: `CTR <- (CTR + 1) mod 2^64` and the counter half re-encoded; the nonce half is kept (R121). -/
def State.cbbInc (s : State) : State :=
  { s with ctr := s.ctr + 1, cb := joinBlock (nonceHalf s.cb) (be64 (s.ctr + 1)) }

/-- The one exchange on the block-cipher port (R64): the request, the reply of the cipher `enc`, and `KS` and
`KSLEN` written from it. -/
def State.exchange (enc : List Byte → Block → Block) (s : State) : State :=
  { s with
    ks := enc (keyBytes s.key s.keylen) s.cb
    kslen := 16
    exchanges := s.exchanges ++
      [⟨s.keylen, keyBytes s.key s.keylen, s.cb, enc (keyBytes s.key s.keylen) s.cb⟩] }

/-- `REFILL` with the cipher `enc`: encrypt the block as it is before the increment, then `CBB_INC` (R137). -/
def State.refill (enc : List Byte → Block → Block) (s : State) : State := (s.exchange enc).cbbInc

/-- `if KSLEN = 0 then REFILL` (R138, R139). -/
def State.refillIfEmpty (enc : List Byte → Block → Block) (s : State) : State :=
  if s.kslen = 0 then s.refill enc else s

/-- The front of the keystream buffer, `KS[16 - KSLEN]` (R32). -/
def State.front (s : State) : Byte := s.ks[frontIndex s.kslen]

/-- `KSLEN <- KSLEN - 1`: the front byte is consumed, `KS` keeps it (R31, R32). -/
def State.pop (s : State) : State := { s with kslen := popped s.kslen }

end Sys2Proof.Machine
end

