-- ==== Sys2Proof/Machine/Builder.lean ====
section
/-! DEFINITION. The commands of the CounterBlockBuilder (spec/41_counter_block_builder.md R122, R123). -/

namespace Sys2Proof.Machine

/-- `CURBLK i` (R122). An out-of-range index comes before the lifecycle check (R178, log entry 8). -/
def execCurblk (idx : Byte) (s : State) : Host.Outcome State Fault Refusal :=
  .next <| match indexInto 16 idx with
    | some i => s.whenReady fun s => s.respond s.cb[i]
    | none => s.raise eIllegal

/-- `INC` (R123). -/
def execInc (s : State) : Host.Outcome State Fault Refusal :=
  .next (s.whenReady fun s => s.cbbInc.respond 0)

end Sys2Proof.Machine
end

