-- ==== Sys2Proof/Machine/Cipher.lean ====
section
/-! DEFINITION. The commands of the KeystreamCipher (spec/42_keystream_cipher.md R135 to R139). The operations take
the open parameters as arguments, so that a test can give them a test double (spec/95_test_vectors.md section 3.1);
the commands themselves use the constants of Config. -/

namespace Sys2Proof.Machine

/-- The pseudocode of R135 with `supported` for membership in `KEYLENS`: whatever the outcome, anything constructed
earlier is discarded and `ERR` written; then an error is raised, or the cipher is built. -/
def State.constructWith (supported : Byte → Bool) (form : NonceForm) (s : State) : State :=
  let e := constructErrors supported form s
  let cleared := s.discard.setErr (errBits e)
  if e ≠ 0 then cleared.raise e
  else ((cleared.cbbBuild s.n s.cin).takeKey.setValid).respond 0

/-- `CONSTRUCT nf` (R135). Of an `nf` above 1 see log entry 8. -/
def execConstruct (nf : Byte) (s : State) : Host.Outcome State Fault Refusal :=
  .next <| match nonceForm nf with
    | some form => s.constructWith keyLenSupported form
    | none => s.raise eIllegal

/-- The pseudocode of R139 after its check of `VALID`, with the cipher `enc`. -/
def State.xorbWith (enc : List Byte → Block → Block) (imm8 : Byte) (s : State) : State :=
  let full := s.refillIfEmpty enc
  full.pop.respond (imm8 ^^^ full.front)

/-- `XORB b` (R139). -/
def execXorb (imm8 : Byte) (s : State) : Host.Outcome State Fault Refusal :=
  .next (s.whenReady fun s => s.xorbWith Config.blkEnc imm8)

end Sys2Proof.Machine
end

