-- ==== Sys2Proof/Machine/Staging.lean ====
section
/-! DEFINITION. The operand staging commands (spec/40_operand_staging.md R110 to R115). They are legal in both
lifecycle modes and never look at `VALID`. A term whose `idx` is out of range is the meaning of no word; as the rules'
"Errors" lines say, it is answered with `E_ILLEGAL` (log entry 8). -/

namespace Sys2Proof.Machine

/-- `LDN i, b` (R110). -/
def execLdn (idx imm8 : Byte) (s : State) : Host.Outcome State Fault Refusal :=
  .next <| match indexInto 8 idx with
    | some i => (s.setN i imm8).respond 0
    | none => s.raise eIllegal

/-- `LDC i, b` (R111). -/
def execLdc (idx imm8 : Byte) (s : State) : Host.Outcome State Fault Refusal :=
  .next <| match indexInto 8 idx with
    | some i => (s.setCinLane i imm8).respond 0
    | none => s.raise eIllegal

/-- `LDK i, b` (R112). -/
def execLdk (idx imm8 : Byte) (s : State) : Host.Outcome State Fault Refusal :=
  .next <| match indexInto 32 idx with
    | some i => (s.setK i imm8).respond 0
    | none => s.raise eIllegal

/-- `SETNL n` (R113). -/
def execSetnl (imm8 : Byte) (s : State) : Host.Outcome State Fault Refusal :=
  .next ((s.setNlen imm8).respond 0)

/-- `SETKL n` (R114). -/
def execSetkl (imm8 : Byte) (s : State) : Host.Outcome State Fault Refusal :=
  .next ((s.setKlen imm8).respond 0)

end Sys2Proof.Machine
end

