-- ==== Sys2Proof/Machine/System.lean ====
section
/-! DEFINITION. The system commands and the answer to an illegal word (spec/43_system.md R160, R161;
spec/60_exceptions.md R175). -/

namespace Sys2Proof.Machine

/-- `STATUS` (R160). -/
def execStatus (s : State) : Host.Outcome State Fault Refusal := .next (s.respond (statusView s))

/-- `DESTROY` (R161). -/
def execDestroy (s : State) : Host.Outcome State Fault Refusal := .next ((s.discard.setErr 0).respond 0)

/-- A command word that is no legal encoding (R88, R175): `E_ILLEGAL`, and nothing changes. -/
def illegalCommand (s : State) : Host.Outcome State Fault Refusal := .next (s.raise eIllegal)

/-- No command on the command port: nothing happens in the block except in response to a command (R177).
Log entry 2. -/
def idle (s : State) : Host.Outcome State Fault Refusal := .next s

end Sys2Proof.Machine
end

