-- ==== Sys2Proof/Machine/Dispatch.lean ====
section
/-! DEFINITION. One arm per constructor of `Instr` (spec/30_encoding.md R84). -/

namespace Sys2Proof.Machine

def exec (i : Instr) (s : State) : Host.Outcome State Fault Refusal :=
  match i with
  | .ldn idx imm8 => Sys2Proof.Machine.execLdn idx imm8 s
  | .ldc idx imm8 => Sys2Proof.Machine.execLdc idx imm8 s
  | .ldk idx imm8 => Sys2Proof.Machine.execLdk idx imm8 s
  | .setnl imm8 => Sys2Proof.Machine.execSetnl imm8 s
  | .setkl imm8 => Sys2Proof.Machine.execSetkl imm8 s
  | .construct nf => Sys2Proof.Machine.execConstruct nf s
  | .curblk idx => Sys2Proof.Machine.execCurblk idx s
  | .inc => Sys2Proof.Machine.execInc s
  | .xorb imm8 => Sys2Proof.Machine.execXorb imm8 s
  | .status => Sys2Proof.Machine.execStatus s
  | .destroy => Sys2Proof.Machine.execDestroy s

end Sys2Proof.Machine
end

