-- ==== Sys2Proof/Machine/Step.lean ====
section
/-! DEFINITION. One step of the block: it takes one command word from the command port and executes it to completion
(spec/20_memory.md R59(e), R61; spec/10_state.md R38). -/

namespace Sys2Proof.Machine

/-- One command, from taking its word to giving its response. -/
def step (s : State) : Host.Outcome State Fault Refusal :=
  match s.takeCommand with
  | none => idle s
  | some (w, s') =>
    match decode w with
    | .ok i => exec i s'
    | .error _ => illegalCommand s'

/-- `s` with the word `w` (of which the table gives `nbits` bits) as the next command on the command port: it stands
for the host issuing that word (log entry 3). -/
def State.withFetchWord (s : State) (nbits w : Nat) : State :=
  { s with commands := BitVec.ofNat 32 (w % 2 ^ nbits) :: s.commands }

end Sys2Proof.Machine
end

