-- ==== Sys2Proof/Machine/HostSide.lean ====
section
/-! DEFINITION. What the host can do to the block: issue command words and cause the reset event
(spec/70_reset_and_hazards.md R200, R201, R215), with the pseudo-instructions, the hexadecimal key text and the assembler
syntax of its software (spec/30_encoding.md R91, R92; spec/60_exceptions.md R185). `step` uses nothing of this file. -/

namespace Sys2Proof.Machine

/-! ### The host's actions -/

/-- The host issues command words, in order (R61). -/
def State.issue (s : State) (ws : List Word) : State := { s with commands := s.commands ++ ws }

/-- The reset event (R200): every register is zero. Commands that have not produced their response produce none
(R201). What the host has already been answered, and what went over the cipher port, stays recorded (log entry 10). -/
def State.resetEvent (s : State) : State :=
  { State.reset with responses := s.responses, exchanges := s.exchanges }

/-! ### Pseudo-instructions (R92) -/

/-- `mk i b` for the indices `i` = `start`, `start + 1`, ... and the bytes of the list in order. -/
def loadFrom (mk : Byte → Byte → Instr) (start : Nat) : List Byte → List Instr
  | [] => []
  | b :: bs => mk (BitVec.ofNat 8 start) b :: loadFrom mk (start + 1) bs

/-- `LOADNONCE v`, value form: to be followed by `CONSTRUCT 0`. -/
def loadNonce (v : Counter) : List Instr := loadFrom .ldn 0 (le64 v).toList

/-- `LOADNONCEBUF s`, buffer form: the first 8 bytes, then the length; to be followed by `CONSTRUCT 1`. -/
def loadNonceBuf (bs : List Byte) : List Instr :=
  loadFrom .ldn 0 (bs.take 8) ++ [.setnl (BitVec.ofNat 8 (min bs.length 255))]

/-- `LOADCTR v`: `LDC i, v[8i+7:8i]`. -/
def loadCtr (v : Counter) : List Instr := loadFrom .ldc 0 (le64 v).toList

/-- `LOADKEY s`: the first 32 bytes, then the length. -/
def loadKey (bs : List Byte) : List Instr :=
  loadFrom .ldk 0 (bs.take 32) ++ [.setkl (BitVec.ofNat 8 (min bs.length 255))]

/-- `READBLK`: `CURBLK 0` to `CURBLK 15`. -/
def readBlk : List Instr := (List.range 16).map fun i => .curblk (BitVec.ofNat 8 i)

/-- `TRANSFORM s`: one `XORB` per byte, none for the empty sequence (R142). -/
def transform (bs : List Byte) : List Instr := bs.map .xorb

/-! ### The host's hexadecimal text (spec/60_exceptions.md R185) -/

/-- The error of the host's text layer. No command raises it: it is no response code (R83, R185). -/
inductive InvalidEncoding where
  /-- An odd number of digits. -/
  | oddLength
  /-- A character that is not a hexadecimal digit. -/
  | notHexDigit
deriving DecidableEq, Repr

/-- The value of a hexadecimal digit, of either case. -/
def hexDigit (ch : Char) : Option Nat :=
  if '0' ≤ ch ∧ ch ≤ '9' then some (ch.toNat - '0'.toNat)
  else if 'a' ≤ ch ∧ ch ≤ 'f' then some (ch.toNat - 'a'.toNat + 10)
  else if 'A' ≤ ch ∧ ch ≤ 'F' then some (ch.toNat - 'A'.toNat + 10)
  else none

/-- Two digits make one byte, the first being the high four bits. What digits the layer writes for a byte (upper or
lower case) the spec does not say, so there is no encoder here. -/
def hexToBytes : List Char → Except InvalidEncoding (List Byte)
  | [] => .ok []
  | [_] => .error .oddLength
  | hi :: lo :: rest =>
    match hexDigit hi, hexDigit lo with
    | some h, some l => (hexToBytes rest).map fun bs => BitVec.ofNat 8 (h * 16 + l) :: bs
    | _, _ => .error .notHexDigit

/-! ### Assembler syntax (R91) -/

/-- The command as a line of assembler, operands in decimal, `idx` before `imm8` (R91). -/
def assembly : Instr → String
  | .ldn idx imm8 => "LDN " ++ toString idx.toNat ++ ", " ++ toString imm8.toNat
  | .ldc idx imm8 => "LDC " ++ toString idx.toNat ++ ", " ++ toString imm8.toNat
  | .ldk idx imm8 => "LDK " ++ toString idx.toNat ++ ", " ++ toString imm8.toNat
  | .setnl imm8 => "SETNL " ++ toString imm8.toNat
  | .setkl imm8 => "SETKL " ++ toString imm8.toNat
  | .construct nf => "CONSTRUCT " ++ toString nf.toNat
  | .curblk idx => "CURBLK " ++ toString idx.toNat
  | .inc => "INC"
  | .xorb imm8 => "XORB " ++ toString imm8.toNat
  | .status => "STATUS"
  | .destroy => "DESTROY"

end Sys2Proof.Machine
end

