-- ==== Sys2Proof/Safety.lean ====
section
/-! DEFINITION. The terms the claims are stated in: what stayed the same, how a command was answered, the invariants
of spec/10_state.md R37, and the keystream of spec/42_keystream_cipher.md R140. -/

namespace Sys2Proof.Machine

/-! ### What stayed the same -/

/-- The staging registers of `t` are those of `s`. -/
def SameStaging (s t : State) : Prop :=
  t.n = s.n ∧ t.cin = s.cin ∧ t.k = s.k ∧ t.nlen = s.nlen ∧ t.klen = s.klen

/-- The registers of the constructed cipher (R20, group "instance") of `t` are those of `s`. -/
def SameCipher (s t : State) : Prop :=
  t.cb = s.cb ∧ t.ctr = s.ctr ∧ t.key = s.key ∧ t.keylen = s.keylen ∧ t.ks = s.ks ∧ t.kslen = s.kslen

/-- `VALID` and `ERR` of `t` are those of `s`. -/
def SameFlags (s t : State) : Prop := t.valid = s.valid ∧ t.err = s.err

/-- Every register of `t` is that of `s`. -/
def SameRegisters (s t : State) : Prop := SameStaging s t ∧ SameCipher s t ∧ SameFlags s t

/-! ### How a command was answered -/

/-- From `s` to `t` exactly one response was given, of that code and data, and nothing was taken from the command
port. -/
def Answered (s t : State) (code data : Byte) : Prop :=
  t.responses = s.responses ++ [⟨code, data⟩] ∧ t.commands = s.commands

/-- From `s` to `t` nothing went over the block-cipher port. -/
def NoExchange (s t : State) : Prop := t.exchanges = s.exchanges

/-! ### The two checks of `CONSTRUCT` (R136) -/

/-- `E_NONCE` applies to `CONSTRUCT nf`. -/
def NonceError (nf : Byte) (s : State) : Prop := nf = 1 ∧ s.nlen.toNat < 8

/-- `E_KEY` applies: `KLEN` is not in `KEYLENS`. -/
def KeyError (s : State) : Prop := keyLenSupported s.klen = false

/-! ### The invariants of R37 -/

/-- The registers of the constructed cipher are all zero. -/
def CipherZero (s : State) : Prop :=
  s.cb = Vector.replicate 16 0 ∧ s.ctr = 0 ∧ s.key = Vector.replicate 32 0 ∧ s.keylen = 0 ∧
    s.ks = Vector.replicate 16 0 ∧ s.kslen = 0

/-- `CB[8+j] = CTR[63-8j : 56-8j]` for `j` in 0..7 (R28). -/
def CounterEncoded (s : State) : Prop :=
  ∀ j : Fin 8, s.cb[8 + j.val] = s.ctr.extractLsb' (56 - 8 * j.val) 8

/-- The nonce half of `t` is that of `s`. -/
def SameNonceHalf (s t : State) : Prop := ∀ i : Fin 8, t.cb[i.val] = s.cb[i.val]

/-- R37(d): `KEYLEN ∈ KEYLENS` and the bytes of `KEY` at and above `KEYLEN` are `0x00`. -/
def KeyWellFormed (s : State) : Prop :=
  keyLenSupported s.keylen = true ∧ ∀ j : Fin 32, s.keylen.toNat ≤ j.val → s.key[j.val] = 0

/-- The invariants (a) to (e) of R37, which hold at every command boundary. -/
def State.Inv (s : State) : Prop :=
  (s.valid = false → CipherZero s) ∧ (s.valid = true → s.err = 0) ∧ (s.valid = true → CounterEncoded s) ∧
    (s.valid = true → KeyWellFormed s) ∧ s.kslen.val ≤ 15

/-! ### The keystream (R140) -/

/-- `Z(p)` for the key `key`, nonce bytes `nb` and start counter `c0` (R140). -/
def keystreamByte (key : List Byte) (nb : Vector Byte 8) (c0 : Counter) (p : Nat) : Byte :=
  (Config.blkEnc key (joinBlock nb (be64 (c0 + BitVec.ofNat 64 (p / 16)))))[p % 16]

/-- The state of a live cipher after `p` successful `XORB` commands with no host `INC` (R38, R140): the counter is
`c0 + ceil(p/16)`, `16 - p mod 16` bytes (none on a block boundary) are left in the buffer, and they are the last ones of the block of counter
`c0 + floor(p/16)`. -/
def AtPosition (key : List Byte) (nb : Vector Byte 8) (c0 : Counter) (p : Nat) (s : State) : Prop :=
  s.valid = true ∧ keyBytes s.key s.keylen = key ∧
    s.ctr = c0 + BitVec.ofNat 64 ((p + 15) / 16) ∧ s.cb = joinBlock nb (be64 s.ctr) ∧
    s.kslen.val = (16 - p % 16) % 16 ∧
    (s.kslen.val ≠ 0 → s.ks = Config.blkEnc key (joinBlock nb (be64 (c0 + BitVec.ofNat 64 (p / 16)))))

/-- The word is none of `INC`, `CONSTRUCT`, `DESTROY`: the command streams R140 is stated for. -/
def keepsStream (w : Word) : Bool :=
  match decode w with
  | .ok .inc => false
  | .ok (.construct _) => false
  | .ok .destroy => false
  | _ => true

/-- The word is an `XORB`. -/
def isXorb (w : Word) : Bool :=
  match decode w with
  | .ok (.xorb _) => true
  | _ => false

/-- How many of the words are `XORB` commands. -/
def xorbCount (ws : List Word) : Nat := ws.countP isXorb

/-- The command words of a sequence of commands. -/
def words (is : List Instr) : List Word := is.map encode

/-- The responses with code `0x00` and the given data bytes, in order. -/
def okResponses (bs : List Byte) : List Response := bs.map fun b => ⟨0, b⟩

end Sys2Proof.Machine
end

