-- ==== Sys2Proof/Certificates/Slice0/Obligations.lean ====
section
/-! DEFINITION. The statements for the provers, from the numbered rules of spec/. Codes and addresses of bits are
written as the rules give them. -/

open Sys2Proof Sys2Proof.Machine

/-! ### Decoding and encoding -/

/-- R81, R85, R87: decoding the word of a well-formed command gives that command back. -/
def Obligations.DecodeOfEncodeIsIdentity : Prop :=
  ∀ i : Instr, wellFormed i = true → decode (encode i) = .ok i

/-- R81, R87: a word decodes only to a well-formed command, and that command's word is the word itself. -/
def Obligations.EncodeOfDecodeIsIdentity : Prop :=
  ∀ (w : Word) (i : Instr), decode w = .ok i → wellFormed i = true ∧ encode i = w

/-- R86: a word is the command of a row exactly when `w AND mask = match`; no word matches two rows; a word that
matches no row is illegal; there are 13077 legal words; the rule's examples. -/
def Obligations.MaskTableDecidesLegality : Prop :=
  (∀ w : Word,
    ((∃ idx b, decode w = .ok (.ldn idx b)) ↔ w &&& 0xFFF8FF00 = 0x01000000) ∧
    ((∃ idx b, decode w = .ok (.ldc idx b)) ↔ w &&& 0xFFF8FF00 = 0x02000000) ∧
    ((∃ idx b, decode w = .ok (.ldk idx b)) ↔ w &&& 0xFFE0FF00 = 0x03000000) ∧
    ((∃ b, decode w = .ok (.setnl b)) ↔ w &&& 0xFFFFFF00 = 0x04000000) ∧
    ((∃ b, decode w = .ok (.setkl b)) ↔ w &&& 0xFFFFFF00 = 0x05000000) ∧
    ((∃ nf, decode w = .ok (.construct nf)) ↔ w &&& 0xFFFEFFFF = 0x10000000) ∧
    ((∃ idx, decode w = .ok (.curblk idx)) ↔ w &&& 0xFFF0FFFF = 0x11000000) ∧
    (decode w = .ok .inc ↔ w &&& 0xFFFFFFFF = 0x12000000) ∧
    ((∃ b, decode w = .ok (.xorb b)) ↔ w &&& 0xFFFFFF00 = 0x20000000) ∧
    (decode w = .ok .status ↔ w &&& 0xFFFFFFFF = 0x30000000) ∧
    (decode w = .ok .destroy ↔ w &&& 0xFFFFFFFF = 0x31000000)) ∧
  (∀ w : Word, patterns.Pairwise fun p q => ¬ (p.holds w ∧ q.holds w)) ∧
  (∀ w : Word, (∃ i, decode w = .ok i) ↔ ∃ p ∈ patterns, p.holds w) ∧
  (∃ legal : List Word, legal.Nodup ∧ legal.length = 13077 ∧ ∀ w, w ∈ legal ↔ ∃ i, decode w = .ok i) ∧
  decode 0x031F00AB = .ok (.ldk 31 0xAB) ∧ decode 0x01070001 = .ok (.ldn 7 0x01) ∧
  decode 0x05000010 = .ok (.setkl 16) ∧ decode 0x10010000 = .ok (.construct 1) ∧
  decode 0x110F0000 = .ok (.curblk 15) ∧ decode 0x20000048 = .ok (.xorb 0x48)

/-- R87, R88: the four tests on the fields accept exactly the words that decode to a command. -/
def Obligations.FieldTestsDecideLegality : Prop :=
  ∀ w : Word, (∃ i, decode w = .ok i) ↔
    w.extractLsb' 8 8 = 0 ∧
    let op : Nat := (w.extractLsb' 24 8).toNat
    let idx : Nat := (w.extractLsb' 16 8).toNat
    let imm : Nat := (w.extractLsb' 0 8).toNat
    ((op = 0x01 ∧ idx ≤ 7) ∨ (op = 0x02 ∧ idx ≤ 7) ∨ (op = 0x03 ∧ idx ≤ 31) ∨ (op = 0x04 ∧ idx = 0) ∨
      (op = 0x05 ∧ idx = 0) ∨ (op = 0x10 ∧ idx ≤ 1 ∧ imm = 0) ∨ (op = 0x11 ∧ idx ≤ 15 ∧ imm = 0) ∨
      (op = 0x12 ∧ idx = 0 ∧ imm = 0) ∨ (op = 0x20 ∧ idx = 0) ∨ (op = 0x30 ∧ idx = 0 ∧ imm = 0) ∨
      (op = 0x31 ∧ idx = 0 ∧ imm = 0))

/-- spec/95_test_vectors.md section 3.8: one word of every command decodes to it. -/
def Obligations.SampleWordsDecode : Prop :=
  decode 0x010700FF = .ok (.ldn 7 0xFF) ∧ decode 0x0203007F = .ok (.ldc 3 0x7F) ∧
  decode 0x031F00AB = .ok (.ldk 31 0xAB) ∧ decode 0x04000009 = .ok (.setnl 9) ∧
  decode 0x05000020 = .ok (.setkl 32) ∧ decode 0x10000000 = .ok (.construct 0) ∧
  decode 0x10010000 = .ok (.construct 1) ∧ decode 0x110F0000 = .ok (.curblk 15) ∧
  decode 0x12000000 = .ok .inc ∧ decode 0x200000FF = .ok (.xorb 0xFF) ∧
  decode 0x30000000 = .ok .status ∧ decode 0x31000000 = .ok .destroy

/-! ### The step -/

/-- R38, R61: a step takes the oldest command word and, if it decodes, runs exactly that well-formed command. -/
def Obligations.StepRunsDecodedCommand : Prop :=
  ∀ (s : State) (w : Word) (rest : List Word) (i : Instr),
    s.commands = w :: rest → decode w = .ok i →
      wellFormed i = true ∧ step s = exec i { s with commands := rest }

/-- R177 (log entry 2): with no command on the command port nothing happens in the block. -/
def Obligations.IdleStepChangesNothing : Prop :=
  ∀ s : State, s.commands = [] → step s = .next s

/-- R186: every command word, in every state, has an outcome, and it is a next state. R186 speaks of command words
only; the rest is the model's: that no step ends in a fault or a refusal of `Outcome` (log entry 9, DEDUCED), the step
with no command waiting (log entry 2, DEDUCED), and `exec` of terms no word decodes to (log entry 8, DEDUCED). -/
def Obligations.StepAlwaysAnswersNext : Prop :=
  (∀ s : State, ∃ t, step s = .next t) ∧ ∀ (i : Instr) (s : State), ∃ t, exec i s = .next t

/-- R175: a word that is no legal encoding is answered `0x0800`, in either lifecycle mode, and nothing changes. -/
def Obligations.IllegalWordChangesNothing : Prop :=
  (∀ (s : State) (w : Word) (rest : List Word),
    s.commands = w :: rest → (¬ ∃ p ∈ patterns, p.holds w) →
      step s = .next { s with commands := rest, responses := s.responses ++ [⟨0x08, 0x00⟩] }) ∧
  Response.word ⟨0x08, 0x00⟩ = 0x0800

/-- R82: one response per command, in command order; code `0x00` exactly when the word is a legal command that no
error turns away (R136, R174, R175), whose effect is what the statements about that command say; any other code goes with
`data = 0x00` and with the state its rule gives (R173 to R175); `r = code·2^8 + data`. -/
def Obligations.OneResponsePerCommand : Prop :=
  ∀ (s : State) (w : Word) (rest : List Word), s.commands = w :: rest →
    ∃ t r, step s = .next t ∧ t.commands = rest ∧ t.responses = s.responses ++ [r] ∧
      (r.code = 0 ↔ ∃ i, decode w = .ok i ∧
        (∀ nf, i = .construct nf → ¬ NonceError nf s ∧ ¬ KeyError s) ∧
        ((∃ idx, i = .curblk idx) ∨ i = .inc ∨ (∃ b, i = .xorb b) → s.valid = true)) ∧
      (r.code ≠ 0 → r.data = 0) ∧
      (r.code = 0x04 ∨ r.code = 0x08 → SameRegisters s t ∧ NoExchange s t) ∧
      (r.code ≠ 0 → r.code ≠ 0x04 → r.code ≠ 0x08 →
        t.valid = false ∧ CipherZero t ∧ t.err = r.code.extractLsb' 0 2 ∧ SameStaging s t ∧ NoExchange s t) ∧
      (r.word).extractLsb' 8 8 = r.code ∧ (r.word).extractLsb' 0 8 = r.data ∧
      (r.word).toNat = r.code.toNat * 2 ^ 8 + r.data.toNat

/-- R83: which command, in which state, raises each bit of `code`; bits 7:4 are always 0; the values of `code` are
exactly the six. -/
def Obligations.EachErrorBitHasItsCause : Prop :=
  (∀ (s t : State) (w : Word) (rest : List Word) (r : Response),
    s.commands = w :: rest → step s = .next t → t.responses = s.responses ++ [r] →
      (r.code.getLsbD 0 = true ↔ decode w = .ok (.construct 1) ∧ s.nlen.toNat < 8) ∧
      (r.code.getLsbD 1 = true ↔ (∃ nf, decode w = .ok (.construct nf)) ∧ KeyError s) ∧
      (r.code.getLsbD 2 = true ↔
        ((∃ idx, decode w = .ok (.curblk idx)) ∨ decode w = .ok .inc ∨ ∃ b, decode w = .ok (.xorb b)) ∧
          s.valid = false) ∧
      (r.code.getLsbD 3 = true ↔ ∀ i, decode w ≠ .ok i) ∧
      r.code.extractLsb' 4 4 = 0 ∧
      r.code ∈ ([0x00, 0x01, 0x02, 0x03, 0x04, 0x08] : List Byte)) ∧
  ∀ c ∈ ([0x00, 0x01, 0x02, 0x03, 0x04, 0x08] : List Byte),
    ∃ s t d, step s = .next t ∧ t.responses = s.responses ++ [⟨c, d⟩]

/-! ### Reset -/

/-- R200, R201, R20: after reset, and after the reset event from any state, every register is zero and no command is
waiting. (That the responses already given and the port's exchanges stay recorded is the model's, log entry 10.) -/
def Obligations.ResetLeavesEveryRegisterZero : Prop :=
  ∀ s r : State, r = State.reset ∨ r = s.resetEvent →
    r.n = Vector.replicate 8 0 ∧ r.cin = 0 ∧ r.k = Vector.replicate 32 0 ∧ r.nlen = 0 ∧ r.klen = 0 ∧
    r.cb = Vector.replicate 16 0 ∧ r.ctr = 0 ∧ r.key = Vector.replicate 32 0 ∧ r.keylen = 0 ∧
    r.ks = Vector.replicate 16 0 ∧ r.kslen = 0 ∧ r.valid = false ∧ r.err = 0 ∧ r.commands = []

/-! ### Staging (R110 to R115) -/

/-- R110: `LDN i, b` writes `N[i]`, responds `0x0000`, in either mode, and changes nothing else. -/
def Obligations.LdnWritesOneNonceByte : Prop :=
  ∀ (s : State) (idx b : Byte), idx.toNat < 8 →
    ∃ t, exec (.ldn idx b) s = .next t ∧
      (∀ j : Fin 8, t.n[j.val] = if j.val = idx.toNat then b else s.n[j.val]) ∧
      t.cin = s.cin ∧ t.k = s.k ∧ t.nlen = s.nlen ∧ t.klen = s.klen ∧
      SameCipher s t ∧ SameFlags s t ∧ Answered s t 0x00 0x00 ∧ NoExchange s t

/-- R111: `LDC i, b` writes bits `8i+7..8i` of `CIN` and keeps the other 56, responds `0x0000`, and changes nothing
else. -/
def Obligations.LdcWritesOneCounterLane : Prop :=
  ∀ (s : State) (idx b : Byte), idx.toNat < 8 →
    ∃ t, exec (.ldc idx b) s = .next t ∧
      (∀ m : Nat, m < 64 →
        t.cin.getLsbD m = if m / 8 = idx.toNat then b.getLsbD (m % 8) else s.cin.getLsbD m) ∧
      t.n = s.n ∧ t.k = s.k ∧ t.nlen = s.nlen ∧ t.klen = s.klen ∧
      SameCipher s t ∧ SameFlags s t ∧ Answered s t 0x00 0x00 ∧ NoExchange s t

/-- R112: `LDK i, b` writes `K[i]`, responds `0x0000`, and changes nothing else: `KEY` is not touched. -/
def Obligations.LdkWritesOneKeyByte : Prop :=
  ∀ (s : State) (idx b : Byte), idx.toNat < 32 →
    ∃ t, exec (.ldk idx b) s = .next t ∧
      (∀ j : Fin 32, t.k[j.val] = if j.val = idx.toNat then b else s.k[j.val]) ∧
      t.n = s.n ∧ t.cin = s.cin ∧ t.nlen = s.nlen ∧ t.klen = s.klen ∧
      SameCipher s t ∧ SameFlags s t ∧ Answered s t 0x00 0x00 ∧ NoExchange s t

/-- R113, R114: `SETNL n` and `SETKL n` write `NLEN` and `KLEN`, for every `n`, respond `0x0000`, and change nothing
else. -/
def Obligations.SetLengthsWriteOneRegister : Prop :=
  (∀ (s : State) (b : Byte), ∃ t, exec (.setnl b) s = .next t ∧ t.nlen = b ∧
    t.n = s.n ∧ t.cin = s.cin ∧ t.k = s.k ∧ t.klen = s.klen ∧
    SameCipher s t ∧ SameFlags s t ∧ Answered s t 0x00 0x00 ∧ NoExchange s t) ∧
  (∀ (s : State) (b : Byte), ∃ t, exec (.setkl b) s = .next t ∧ t.klen = b ∧
    t.n = s.n ∧ t.cin = s.cin ∧ t.k = s.k ∧ t.nlen = s.nlen ∧
    SameCipher s t ∧ SameFlags s t ∧ Answered s t 0x00 0x00 ∧ NoExchange s t)

/-- R88(c), R178 (log entry 8: no word decodes to such a term): a command with its index out of range is answered
`0x0800` whatever the mode, and nothing changes. -/
def Obligations.IndexOutOfRangeIsIllegal : Prop :=
  ∀ (i : Instr) (s : State), wellFormed i = false →
    exec i s = .next { s with responses := s.responses ++ [⟨0x08, 0x00⟩] }

/-- R20, R115(b), (d): each staging register is changed only by its own staging command; no command clears one. -/
def Obligations.StagingChangedOnlyByItsCommand : Prop :=
  ∀ (i : Instr) (s t : State), exec i s = .next t →
    (t.n ≠ s.n → ∃ idx b, i = .ldn idx b) ∧ (t.cin ≠ s.cin → ∃ idx b, i = .ldc idx b) ∧
    (t.k ≠ s.k → ∃ idx b, i = .ldk idx b) ∧ (t.nlen ≠ s.nlen → ∃ b, i = .setnl b) ∧
    (t.klen ≠ s.klen → ∃ b, i = .setkl b)

/-- R115(c): nothing reads a staging register except `CONSTRUCT`: of two states that differ only there, every other
command makes two that agree on the cipher, the flags and the ports. -/
def Obligations.StagingReadOnlyByConstruct : Prop :=
  ∀ (i : Instr) (s s' t t' : State), (∀ nf, i ≠ .construct nf) →
    SameCipher s s' → SameFlags s s' → s'.commands = s.commands → s'.responses = s.responses →
    s'.exchanges = s.exchanges → exec i s = .next t → exec i s' = .next t' →
      SameCipher t t' ∧ SameFlags t t' ∧ t'.commands = t.commands ∧ t'.responses = t.responses ∧
        t'.exchanges = t.exchanges

/-- R54, R55, R57, R92: `LOADNONCE v`, `LOADCTR c`, `CONSTRUCT 0` lay the nonce value out little-endian and the
counter big-endian. -/
def Obligations.StagedNumbersReachTheBlock : Prop :=
  ∀ (s : State) (v c : Counter), keyLenSupported s.klen = true →
    s.commands = words (loadNonce v ++ loadCtr c ++ [.construct 0]) →
    ∃ t, Sys2Proof.core.run 17 s = .next t ∧ t.valid = true ∧ t.ctr = c ∧
      (∀ i : Fin 8, t.cb[i.val] = v.extractLsb' (8 * i.val) 8) ∧
      (∀ j : Fin 8, t.cb[8 + j.val] = c.extractLsb' (56 - 8 * j.val) 8)

/-- R92, R112, R56: `LOADKEY bs`, `CONSTRUCT 0` make `bs`, byte 0 first, the key given to `BlkEnc`. -/
def Obligations.StagedKeyReachesThePort : Prop :=
  ∀ (s : State) (bs : List Byte), bs.length ≤ 32 → keyLenSupported (BitVec.ofNat 8 bs.length) = true →
    s.commands = words (loadKey bs ++ [.construct 0]) →
    ∃ t, Sys2Proof.core.run (bs.length + 2) s = .next t ∧ t.valid = true ∧
      t.keylen.toNat = bs.length ∧ keyBytes t.key t.keylen = bs

/-! ### The counter block (R120 to R125) -/

/-- R120: `CBB_BUILD` lays out nonce bytes and big-endian counter and writes nothing else; `CONSTRUCT` performs it
with `N` and `CIN` once its checks have passed; the rule's example. -/
def Obligations.CbbBuildLaysOutTheBlock : Prop :=
  (∀ (s : State) (nb : Vector Byte 8) (c : Counter),
    (∀ i : Fin 8, (s.cbbBuild nb c).cb[i.val] = nb[i.val]) ∧
    (s.cbbBuild nb c).ctr = c ∧
    (∀ j : Fin 8, (s.cbbBuild nb c).cb[8 + j.val] = c.extractLsb' (56 - 8 * j.val) 8) ∧
    s.cbbBuild nb c = { s with cb := (s.cbbBuild nb c).cb, ctr := c }) ∧
  (∀ (s t : State) (nf : Byte), nf.toNat < 2 → ¬ NonceError nf s → ¬ KeyError s →
    exec (.construct nf) s = .next t →
      t.cb = (s.cbbBuild s.n s.cin).cb ∧ t.ctr = (s.cbbBuild s.n s.cin).ctr) ∧
  ∀ s : State, (s.cbbBuild (Vector.replicate 8 0) 1).cb = #v[0, 0, 0, 0, 0, 0, 0, 0, 0, 0, 0, 0, 0, 0, 0, 1]

/-- R121: `CBB_INC` adds one modulo 2^64, re-encodes the counter half, keeps the nonce half (no carry into it at the
wrap), and writes nothing else; it is what `INC` performs, and what a refill performs after its exchange. -/
def Obligations.CbbIncStepsTheCounter : Prop :=
  (∀ s : State,
    (s.cbbInc).ctr.toNat = (s.ctr.toNat + 1) % 2 ^ 64 ∧ CounterEncoded s.cbbInc ∧ SameNonceHalf s s.cbbInc ∧
    s.cbbInc = { s with cb := (s.cbbInc).cb, ctr := (s.cbbInc).ctr } ∧
    (s.ctr = 0xFFFFFFFFFFFFFFFF → (s.cbbInc).ctr = 0 ∧ ∀ j : Fin 8, (s.cbbInc).cb[8 + j.val] = 0)) ∧
  (∀ s : State, s.valid = true → exec .inc s = .next (s.cbbInc.respond 0x00)) ∧
  ∀ (s t : State) (b : Byte), s.valid = true → s.kslen = 0 → exec (.xorb b) s = .next t →
    t.ctr = (s.cbbInc).ctr ∧ t.cb = (s.cbbInc).cb

/-- R124(f): the increment seen on the bytes of the block: a byte of the counter half goes up by one exactly when all
bytes after it were `0xFF`; a carry out of `CB[8]` is dropped. -/
def Obligations.IncrementRipplesThroughTheBytes : Prop :=
  ∀ s : State, CounterEncoded s → ∀ j : Fin 8,
    (s.cbbInc).cb[8 + j.val] =
      if (∀ m : Fin 8, j.val < m.val → s.cb[8 + m.val] = 0xFF) then s.cb[8 + j.val] + 1 else s.cb[8 + j.val]

/-- R8, R124(e), R21: `be64` and `unbe64`, `le64` and `unle64` are exact inverses. -/
def Obligations.IntegerEncodingsAreInverse : Prop :=
  (∀ v : Counter, unbe64 (be64 v) = v ∧ unle64 (le64 v) = v) ∧
  ∀ b : Vector Byte 8, be64 (unbe64 b) = b ∧ le64 (unle64 b) = b

/-- R122: with a constructed cipher `CURBLK i` returns `CB[i]` and changes nothing. -/
def Obligations.CurblkReturnsOneBlockByte : Prop :=
  ∀ (s : State) (idx : Byte) (h : idx.toNat < 16), s.valid = true →
    ∃ t, exec (.curblk idx) s = .next t ∧ SameRegisters s t ∧
      Answered s t 0x00 s.cb[idx.toNat] ∧ NoExchange s t

/-- R123: with a constructed cipher `INC` adds one to `CTR`, re-encodes `CB[8..16)`, responds `0x0000` also at the
wrap, and leaves the nonce half, the keystream buffer, the key, the flags and the staging registers alone. -/
def Obligations.IncAddsOneToTheCounter : Prop :=
  ∀ s : State, s.valid = true →
    ∃ t, exec .inc s = .next t ∧ t.ctr = s.ctr + 1 ∧ CounterEncoded t ∧ SameNonceHalf s t ∧
      t.key = s.key ∧ t.keylen = s.keylen ∧ t.ks = s.ks ∧ t.kslen = s.kslen ∧
      SameStaging s t ∧ SameFlags s t ∧ Answered s t 0x00 0x00 ∧ NoExchange s t

/-- R124(c), R125(b): after `n` `INC` commands the counter is `(c + n) mod 2^64`, the counter half its encoding, the
nonce half what it was; the counter returns to `c` exactly at the multiples of 2^64. -/
def Obligations.RepeatedIncAddsN : Prop :=
  ∀ (n : Nat) (s : State), s.valid = true → CounterEncoded s → s.commands = words (List.replicate n .inc) →
    ∃ t, Sys2Proof.core.run n s = .next t ∧ t.ctr.toNat = (s.ctr.toNat + n) % 2 ^ 64 ∧ CounterEncoded t ∧
      SameNonceHalf s t ∧ (t.ctr = s.ctr ↔ 2 ^ 64 ∣ n)

/-- R174: without a constructed cipher `CURBLK`, `INC` and `XORB` are answered `0x0400`; nothing changes at all. -/
def Obligations.NoCipherAnswersStateError : Prop :=
  (∀ (s : State) (i : Instr), s.valid = false →
    ((∃ idx, idx.toNat < 16 ∧ i = .curblk idx) ∨ i = .inc ∨ ∃ b, i = .xorb b) →
      exec i s = .next { s with responses := s.responses ++ [⟨0x04, 0x00⟩] }) ∧
  Response.word ⟨0x04, 0x00⟩ = 0x0400

/-! ### Construction (R135, R136, R173) -/

/-- R5: `KEYLENS` contains 16 and is a subset of 1..32, so the absent key (length 0) is never a member. -/
def Obligations.KeyLensContains16Within1To32 : Prop :=
  keyLenSupported 16 = true ∧ keyLenSupported 0 = false ∧
    ∀ len : Byte, keyLenSupported len = true → 1 ≤ len.toNat ∧ len.toNat ≤ 32

/-- R135: `CONSTRUCT nf` whose checks pass builds a fresh cipher from the staging registers, whatever was there
before, and makes no exchange on the block-cipher port. -/
def Obligations.ConstructBuildsFromStaging : Prop :=
  ∀ (s : State) (nf : Byte), nf.toNat < 2 → ¬ NonceError nf s → ¬ KeyError s →
    ∃ t, exec (.construct nf) s = .next t ∧
      (∀ i : Fin 8, t.cb[i.val] = s.n[i.val]) ∧ t.ctr = s.cin ∧ CounterEncoded t ∧
      (∀ i : Fin 32, t.key[i.val] = if i.val < s.klen.toNat then s.k[i.val] else 0) ∧ t.keylen = s.klen ∧
      t.ks = Vector.replicate 16 0 ∧ t.kslen = 0 ∧ t.valid = true ∧ t.err = 0 ∧
      SameStaging s t ∧ Answered s t 0x00 0x00 ∧ NoExchange s t

/-- R173: the state after a `CONSTRUCT` that raised `E_NONCE`, `E_KEY` or both. -/
def Obligations.FailedConstructDestroysTheCipher : Prop :=
  ∀ (s : State) (nf : Byte), nf.toNat < 2 → (NonceError nf s ∨ KeyError s) →
    ∃ t code, exec (.construct nf) s = .next t ∧ Answered s t code 0x00 ∧
      (code.getLsbD 0 = true ↔ NonceError nf s) ∧ (code.getLsbD 1 = true ↔ KeyError s) ∧
      code.toNat < 4 ∧ t.valid = false ∧ CipherZero t ∧ t.err = code.extractLsb' 0 2 ∧
      SameStaging s t ∧ NoExchange s t

/-- R59(f), R135(e): `CONSTRUCT` and `DESTROY` repeated back to back leave every register as the first left it. -/
def Obligations.ConstructAndDestroyRepeatIdempotently : Prop :=
  ∀ (s t t' : State) (i : Instr), ((∃ nf, nf.toNat < 2 ∧ i = .construct nf) ∨ i = .destroy) →
    exec i s = .next t → exec i t = .next t' → SameRegisters t t'

/-! ### Keystream and transform (R137 to R146) -/

/-- R139, R141: an `XORB` that finds bytes in the buffer pops the front one, `KS[16 - KSLEN]`, XORs it, and changes
`KSLEN` alone. -/
def Obligations.XorbPopsTheBuffer : Prop :=
  ∀ (s : State) (b : Byte) (_ : s.valid = true) (h : s.kslen.val ≠ 0),
    ∃ t, exec (.xorb b) s = .next t ∧
      Answered s t 0x00 (b ^^^ s.ks[16 - s.kslen.val]) ∧ t.kslen.val = s.kslen.val - 1 ∧
      t.cb = s.cb ∧ t.ctr = s.ctr ∧ t.key = s.key ∧ t.keylen = s.keylen ∧ t.ks = s.ks ∧
      SameStaging s t ∧ SameFlags s t ∧ NoExchange s t

/-- R137, R139, R64: an `XORB` that finds the buffer empty makes one exchange with the key bytes and the block as it
is before the increment, fills `KS`, increments the counter, and uses `KS[0]`. -/
def Obligations.XorbRefillsTheEmptyBuffer : Prop :=
  ∀ (s : State) (b : Byte), s.valid = true → s.kslen = 0 →
    ∃ t out, exec (.xorb b) s = .next t ∧ out = Config.blkEnc (s.key.toList.take s.keylen.toNat) s.cb ∧
      Answered s t 0x00 (b ^^^ out[0]) ∧ t.ks = out ∧ t.kslen = 15 ∧
      t.ctr = s.ctr + 1 ∧ CounterEncoded t ∧ SameNonceHalf s t ∧ t.key = s.key ∧ t.keylen = s.keylen ∧
      SameStaging s t ∧ SameFlags s t ∧
      t.exchanges = s.exchanges ++ [⟨s.keylen, s.key.toList.take s.keylen.toNat, s.cb, out⟩]

/-- R138, R65, R66: an exchange on the block-cipher port happens in an `XORB` on a live cipher that finds the buffer
empty, exactly one, and in no other step. -/
def Obligations.ExchangeOnlyWhenXorbFindsEmptyBuffer : Prop :=
  ∀ (s t : State) (w : Word) (rest : List Word), s.commands = w :: rest → step s = .next t →
    if isXorb w = true ∧ s.valid = true ∧ s.kslen = 0 then
      ∃ e, t.exchanges = s.exchanges ++ [e] ∧ e.block = s.cb ∧ e.keylen = s.keylen ∧ e.out = t.ks
    else t.exchanges = s.exchanges ∧ (t.ks = s.ks ∨ t.ks = Vector.replicate 16 0)

/-- R140, R141: the input byte reaches nothing but the final XOR. -/
def Obligations.InputByteReachesOnlyTheOutput : Prop :=
  ∀ (s t t' : State) (b b' : Byte), s.valid = true →
    exec (.xorb b) s = .next t → exec (.xorb b') s = .next t' →
      SameRegisters t t' ∧ t'.exchanges = t.exchanges ∧
      ∃ d d', Answered s t 0x00 d ∧ Answered s t' 0x00 d' ∧ d ^^^ d' = b ^^^ b'

/-- R140, R38: a successful `CONSTRUCT` leaves a cipher at stream position 0 of its key, nonce and start counter. -/
def Obligations.ConstructStartsTheStream : Prop :=
  ∀ (s t : State) (nf : Byte), nf.toNat < 2 → ¬ NonceError nf s → ¬ KeyError s →
    exec (.construct nf) s = .next t →
      AtPosition (s.k.toList.take s.klen.toNat) s.n s.cin 0 t

/-- R140, R38: the invariant of a stream: at position `p` an `XORB` uses keystream byte `Z(p)` and moves to `p + 1`;
every other word but `INC`, `CONSTRUCT`, `DESTROY`, an illegal one among them, stays at `p`. -/
def Obligations.StepKeepsTheStreamPosition : Prop :=
  ∀ (key : List Byte) (nb : Vector Byte 8) (c0 : Counter) (p : Nat) (s : State) (w : Word) (rest : List Word),
    AtPosition key nb c0 p s → s.commands = w :: rest → keepsStream w = true →
      ∃ t, step s = .next t ∧ t.commands = rest ∧
        (∀ b, decode w = .ok (.xorb b) →
          AtPosition key nb c0 (p + 1) t ∧
            t.responses = s.responses ++ [⟨0x00, b ^^^ keystreamByte key nb c0 p⟩]) ∧
        (isXorb w = false → AtPosition key nb c0 p t)

/-- R140, R61(c): the closed form over a whole command stream without `INC`, `CONSTRUCT`, `DESTROY`, from any position:
every `XORB` returns its input XOR the keystream byte of its own number, whatever is interleaved. -/
def Obligations.KeystreamHasClosedForm : Prop :=
  ∀ (key : List Byte) (nb : Vector Byte 8) (c0 : Counter) (p : Nat) (s : State),
    AtPosition key nb c0 p s → (∀ w ∈ s.commands, keepsStream w = true) →
      ∃ t rs, Sys2Proof.core.run s.commands.length s = .next t ∧ t.commands = [] ∧
        AtPosition key nb c0 (p + xorbCount s.commands) t ∧
        t.responses = s.responses ++ rs ∧ rs.length = s.commands.length ∧
        ∀ (m : Nat) (w : Word) (b : Byte), s.commands[m]? = some w → decode w = .ok (.xorb b) →
          rs[m]? = some ⟨0x00, b ^^^ keystreamByte key nb c0 (p + xorbCount (s.commands.take m))⟩

/-- R143, R61: cutting an input in two, with commands that are no `XORB` and keep the stream between the chunks,
gives the outputs of the uncut input. -/
def Obligations.ChunkingDoesNotChangeTheOutput : Prop :=
  ∀ (key : List Byte) (nb : Vector Byte 8) (c0 : Counter) (p : Nat) (s s' : State) (x₁ x₂ : List Byte)
    (between : List Word),
    AtPosition key nb c0 p s → AtPosition key nb c0 p s' →
    (∀ w ∈ between, keepsStream w = true ∧ isXorb w = false) →
    s.commands = words (transform (x₁ ++ x₂)) →
    s'.commands = words (transform x₁) ++ between ++ words (transform x₂) →
      ∃ t t' y₁ y₂ other, Sys2Proof.core.run (x₁.length + x₂.length) s = .next t ∧
        Sys2Proof.core.run (x₁.length + between.length + x₂.length) s' = .next t' ∧
        y₁.length = x₁.length ∧ other.length = between.length ∧ y₂.length = x₂.length ∧
        t.responses = s.responses ++ okResponses (y₁ ++ y₂) ∧
        t'.responses = s'.responses ++ okResponses y₁ ++ other ++ okResponses y₂

/-- R144, R145: `CONSTRUCT`, `TRANSFORM P` gives as many bytes `C` as `P` has, and `CONSTRUCT`, `TRANSFORM C` with the
same staging registers gives `P` back, whatever state the second run starts from. -/
def Obligations.TransformTwiceGivesTheInputBack : Prop :=
  ∀ (s s' : State) (nf : Byte) (input : List Byte), nf.toNat < 2 → ¬ NonceError nf s → ¬ KeyError s →
    SameStaging s s' → s.commands = words (.construct nf :: transform input) →
      ∃ t output, Sys2Proof.core.run (1 + input.length) s = .next t ∧ output.length = input.length ∧
        t.responses = s.responses ++ ⟨0x00, 0x00⟩ :: okResponses output ∧
        (s'.commands = words (.construct nf :: transform output) →
          ∃ t', Sys2Proof.core.run (1 + input.length) s' = .next t' ∧
            t'.responses = s'.responses ++ ⟨0x00, 0x00⟩ :: okResponses input)

/-- R140, R205: because the counter wraps, the keystream repeats after 2^68 bytes. -/
def Obligations.KeystreamRepeatsAfterTheWrap : Prop :=
  ∀ (key : List Byte) (nb : Vector Byte 8) (c0 : Counter) (p : Nat),
    keystreamByte key nb c0 (p + 16 * 2 ^ 64) = keystreamByte key nb c0 p

/-! ### System commands and lifecycle -/

/-- R160, R35: `STATUS` returns `KSLEN` in bits 7:3, `ERR[1]` in bit 2, `ERR[0]` in bit 1, `VALID` in bit 0, in either
mode, and changes nothing. -/
def Obligations.StatusReturnsTheStatusView : Prop :=
  ∀ s : State, ∃ t d, exec .status s = .next t ∧ Answered s t 0x00 d ∧ SameRegisters s t ∧ NoExchange s t ∧
    (d.extractLsb' 3 5).toNat = s.kslen.val ∧ d.getLsbD 2 = s.err.getLsbD 1 ∧ d.getLsbD 1 = s.err.getLsbD 0 ∧
    d.getLsbD 0 = s.valid

/-- R160: at a command boundary `STATUS` never returns more than `0x79`, and `data[0] = 1` implies `data[2:1] = 0`. -/
def Obligations.StatusDataIsBounded : Prop :=
  ∀ (s t : State) (d : Byte), s.Inv → exec .status s = .next t → Answered s t 0x00 d →
    d.toNat ≤ 0x79 ∧ (d.getLsbD 0 = true → d.extractLsb' 1 2 = 0)

/-- R161, R66: `DESTROY` zeroes the cipher and both flags, in either mode, leaves the staging registers, and makes no
exchange; what it zeroes is then as reset leaves it. -/
def Obligations.DestroyClearsTheCipher : Prop :=
  ∀ s : State, ∃ t, exec .destroy s = .next t ∧ t.valid = false ∧ t.err = 0 ∧ CipherZero t ∧
    SameCipher State.reset t ∧ SameFlags State.reset t ∧
    SameStaging s t ∧ Answered s t 0x00 0x00 ∧ NoExchange s t

/-- R33: `VALID` is set only by a successful `CONSTRUCT` and cleared by a failed one, by `DESTROY` and by reset;
no illegal word changes it; `CURBLK`, `INC`, `XORB` raise `E_STATE` when it is 0. -/
def Obligations.ValidFollowsConstructAndDestroy : Prop :=
  (∀ (i : Instr) (s t : State), exec i s = .next t →
    (∀ nf, i = .construct nf → nf.toNat < 2 → (t.valid = true ↔ ¬ NonceError nf s ∧ ¬ KeyError s)) ∧
    (i = .destroy → t.valid = false) ∧
    ((∀ nf, i ≠ .construct nf) → i ≠ .destroy → t.valid = s.valid) ∧
    (s.valid = false → ((∃ idx, idx.toNat < 16 ∧ i = .curblk idx) ∨ i = .inc ∨ ∃ b, i = .xorb b) →
      Answered s t 0x04 0x00)) ∧
  (∀ (s t : State) (w : Word) (rest : List Word), s.commands = w :: rest → (∀ i, decode w ≠ .ok i) →
    step s = .next t → t.valid = s.valid) ∧
  State.reset.valid = false ∧ ∀ s : State, s.resetEvent.valid = false

/-- R34: every `CONSTRUCT` overwrites both bits of `ERR`, bit 0 for `InvalidNonce` and bit 1 for `InvalidKey`; `DESTROY`
and reset clear both; no other command, and no illegal word, writes `ERR`. -/
def Obligations.ErrHoldsTheLastConstructErrors : Prop :=
  (∀ (i : Instr) (s t : State), exec i s = .next t →
    (∀ nf, i = .construct nf → nf.toNat < 2 →
      (t.err.getLsbD 0 = true ↔ NonceError nf s) ∧ (t.err.getLsbD 1 = true ↔ KeyError s)) ∧
    (i = .destroy → t.err = 0) ∧
    ((∀ nf, i ≠ .construct nf) → i ≠ .destroy → t.err = s.err)) ∧
  (∀ (s t : State) (w : Word) (rest : List Word), s.commands = w :: rest → (∀ i, decode w ≠ .ok i) →
    step s = .next t → t.err = s.err) ∧
  State.reset.err = 0 ∧ ∀ s : State, s.resetEvent.err = 0

/-! ### Invariants and whole-machine rules -/

/-- R37, R200: the invariants hold after reset. -/
def Obligations.ResetMeetsTheInvariant : Prop := State.reset.Inv

/-- R37(a) to (e): every step keeps the invariants, from every state that meets them. -/
def Obligations.StepKeepsTheInvariant : Prop :=
  ∀ s t : State, s.Inv → step s = .next t → t.Inv

/-- R37: at every command boundary from reset on, whatever the host issues, the invariants (a) to (e) hold; and (f) the
nonce half changes in no step but a `CONSTRUCT` or a `DESTROY`. -/
def Obligations.EveryCommandBoundaryMeetsTheInvariant : Prop :=
  (∀ (ws : List Word) (n : Nat) (t : State),
    Sys2Proof.core.run n (State.reset.issue ws) = .next t → t.Inv) ∧
  ∀ s t : State, step s = .next t → ¬ SameNonceHalf s t →
    ∃ w rest, s.commands = w :: rest ∧ ((∃ nf, decode w = .ok (.construct nf)) ∨ decode w = .ok .destroy)

/-- R28: whenever `VALID = 1` the counter half is the big-endian `CTR`, kept by every step; and every command that
writes `CTR` (or changes it in any way) leaves the counter half its encoding. -/
def Obligations.CounterHalfAlwaysEncodesTheCounter : Prop :=
  (∀ s t : State, (s.valid = true → CounterEncoded s) → step s = .next t → (t.valid = true → CounterEncoded t)) ∧
  (State.reset.valid = true → CounterEncoded State.reset) ∧
  ∀ (i : Instr) (s t : State), exec i s = .next t →
    (t.ctr ≠ s.ctr ∨ (∃ nf, nf.toNat < 2 ∧ i = .construct nf) ∨ i = .destroy ∨ (i = .inc ∧ s.valid = true) ∨
      ∃ b, i = .xorb b ∧ s.valid = true ∧ s.kslen = 0) → CounterEncoded t

/-- R36, R162: no command but `XORB` lets a byte of `K`, `KEY` or `KS` be seen: of two states that differ only in these
(and in `KEYLEN`, `N`, `CIN`), every other command gives the same response. -/
def Obligations.KeyAndKeystreamCannotBeReadBack : Prop :=
  ∀ (i : Instr) (s s' t t' : State), (∀ b, i ≠ .xorb b) →
    s'.nlen = s.nlen → s'.klen = s.klen → s'.cb = s.cb → s'.kslen = s.kslen → SameFlags s s' →
    s'.responses = s.responses → exec i s = .next t → exec i s' = .next t' → t'.responses = t.responses
end

