-- ==== Sys2Proof/Laws/Decode.lean ====
section
/-! SUPPORT. The fields of a packed word, and what decoding can answer. -/

namespace Sys2Proof

/-! ### Fields and packing are inverse (R81) -/

theorem opcodeOf_toNat (w : Word) : (opcodeOf w).toNat = w.toNat / 2 ^ 24 % 2 ^ 8 := by
  simp [opcodeOf, Nat.shiftRight_eq_div_pow]

theorem idxOf_toNat (w : Word) : (idxOf w).toNat = w.toNat / 2 ^ 16 % 2 ^ 8 := by
  simp [idxOf, Nat.shiftRight_eq_div_pow]

theorem zeroOf_toNat (w : Word) : (zeroOf w).toNat = w.toNat / 2 ^ 8 % 2 ^ 8 := by
  simp [zeroOf, Nat.shiftRight_eq_div_pow]

theorem immOf_toNat (w : Word) : (immOf w).toNat = w.toNat % 2 ^ 8 := by
  simp [immOf]

/-- `w = opcode·2^24 + idx·2^16 + zero·2^8 + imm8`, exactly: the four bytes fill the word. -/
theorem packWord_toNat (a b c d : Byte) :
    (packWord a b c d).toNat = a.toNat * 2 ^ 24 + b.toNat * 2 ^ 16 + c.toNat * 2 ^ 8 + d.toNat := by
  have := a.isLt; have := b.isLt; have := c.isLt; have := d.isLt
  simp only [packWord, BitVec.toNat_ofNat]
  omega

@[simp] theorem opcodeOf_packWord (a b c d : Byte) : opcodeOf (packWord a b c d) = a := by
  have := a.isLt; have := b.isLt; have := c.isLt; have := d.isLt
  apply BitVec.eq_of_toNat_eq
  rw [opcodeOf_toNat, packWord_toNat]
  omega

@[simp] theorem idxOf_packWord (a b c d : Byte) : idxOf (packWord a b c d) = b := by
  have := a.isLt; have := b.isLt; have := c.isLt; have := d.isLt
  apply BitVec.eq_of_toNat_eq
  rw [idxOf_toNat, packWord_toNat]
  omega

@[simp] theorem zeroOf_packWord (a b c d : Byte) : zeroOf (packWord a b c d) = c := by
  have := a.isLt; have := b.isLt; have := c.isLt; have := d.isLt
  apply BitVec.eq_of_toNat_eq
  rw [zeroOf_toNat, packWord_toNat]
  omega

@[simp] theorem immOf_packWord (a b c d : Byte) : immOf (packWord a b c d) = d := by
  have := a.isLt; have := b.isLt; have := c.isLt; have := d.isLt
  apply BitVec.eq_of_toNat_eq
  rw [immOf_toNat, packWord_toNat]
  omega

/-- A word is its four fields packed. -/
theorem packWord_fields (w : Word) : packWord (opcodeOf w) (idxOf w) (zeroOf w) (immOf w) = w := by
  have := w.isLt
  apply BitVec.eq_of_toNat_eq
  rw [packWord_toNat, opcodeOf_toNat, idxOf_toNat, zeroOf_toNat, immOf_toNat]
  omega

/-- Two words with the same four fields are the same word. -/
theorem word_eq_of_fields {w v : Word} (ho : opcodeOf w = opcodeOf v) (hi : idxOf w = idxOf v)
    (hz : zeroOf w = zeroOf v) (hm : immOf w = immOf v) : w = v := by
  rw [← packWord_fields w, ← packWord_fields v, ho, hi, hz, hm]

/-! ### Decoding (R87) -/

/-- All a successful decoding says: the `zero` field is 0 and the fields pass the tests of one row of R84. -/
theorem decode_eq_ok_iff (w : Word) (i : Instr) :
    decode w = .ok i ↔ zeroOf w = 0#8 ∧ ∃ r, commandRows.find? (fun r => r.opcode == opcodeOf w) = some r ∧
      (idxOf w).toNat < r.idxCount ∧ (r.takesImm = true ∨ immOf w = 0#8) ∧ r.make (idxOf w) (immOf w) = i := by
  unfold decode
  split
  · simp_all
  split
  · rename_i hnone
    simp [hnone]
  split
  · simp_all
  split
  · simp_all
  · rename_i hz _ r hf hi hm
    have hz' : zeroOf w = 0#8 := by simpa using hz
    have hm' : r.takesImm = true ∨ immOf w = 0#8 := by
      cases h : r.takesImm
      · exact .inr (by simpa [h] using hm)
      · exact .inl rfl
    simp only [Except.ok.injEq, hz', hf, true_and, Option.some.injEq]
    constructor
    · intro h; exact ⟨r, rfl, by omega, hm', h⟩
    · rintro ⟨_, rfl, -, -, h⟩; exact h

/-- A lookup in R84 answers the row of that opcode. -/
theorem find_commandRow {op : Byte} {r : CommandRow} (h : commandRows.find? (fun r => r.opcode == op) = some r) :
    r ∈ commandRows ∧ r.opcode = op :=
  ⟨List.mem_of_find?_eq_some h, by simpa using List.find?_some h⟩

/-- Decoding answers a command or an error, never both. -/
theorem decode_ok_or_error (w : Word) : (∃ i, decode w = .ok i) ∨ ∃ e, decode w = .error e := by
  cases h : decode w with
  | ok i => exact .inl ⟨i, rfl⟩
  | error e => exact .inr ⟨e, rfl⟩

end Sys2Proof
end

