-- ==== Sys2Proof/Laws/Operands.lean ====
section
/-! SUPPORT. One lemma per operand form and flag computation: what it answers (R8, R22, R26, R29, R32, R35, R51, R85,
R136). -/

namespace Sys2Proof.Machine

/-! ### Indices and the nonce form -/

theorem indexInto_of_lt {size : Nat} {idx : Byte} (h : idx.toNat < size) :
    indexInto size idx = some ⟨idx.toNat, h⟩ := by
  simp [indexInto, h]

theorem indexInto_of_ge {size : Nat} {idx : Byte} (h : ¬ idx.toNat < size) : indexInto size idx = none := by
  simp [indexInto, h]

@[simp] theorem nonceForm_zero : nonceForm 0#8 = some .value := rfl

@[simp] theorem nonceForm_one : nonceForm 1#8 = some .buffer := rfl

/-- An `nf` in range is 0 or 1. -/
theorem nf_eq_zero_or_one {nf : Byte} (h : nf.toNat < 2) : nf = 0#8 ∨ nf = 1#8 := by
  have : nf.toNat = 0 ∨ nf.toNat = 1 := by omega
  rcases this with h | h
  · exact .inl (BitVec.eq_of_toNat_eq h)
  · exact .inr (BitVec.eq_of_toNat_eq h)

theorem nonceForm_of_ge {nf : Byte} (h : ¬ nf.toNat < 2) : nonceForm nf = none := by
  have h0 : nf ≠ 0#8 := by rintro rfl; exact h (by decide)
  have h1 : nf ≠ 1#8 := by rintro rfl; exact h (by decide)
  simp [nonceForm, h0, h1]

/-! ### Byte orders -/

theorem be64_get (v : Counter) (j : Fin 8) : (be64 v)[j.val] = v.extractLsb' (56 - 8 * j.val) 8 := by
  fin_cases j <;> rfl

theorem le64_get (v : Counter) (i : Fin 8) : (le64 v)[i.val] = v.extractLsb' (8 * i.val) 8 := by
  fin_cases i <;> rfl

theorem joinBlock_low (nb ct : Vector Byte 8) (i : Fin 8) : (joinBlock nb ct)[i.val] = nb[i.val] := by
  fin_cases i <;> rfl

theorem joinBlock_high (nb ct : Vector Byte 8) (j : Fin 8) : (joinBlock nb ct)[8 + j.val] = ct[j.val] := by
  fin_cases j <;> rfl

theorem nonceHalf_get (b : Block) (i : Fin 8) : (nonceHalf b)[i.val] = b[i.val] := by
  fin_cases i <;> rfl

/-- The nonce half of `nonce ‖ counter` is the nonce. -/
@[simp] theorem nonceHalf_joinBlock (nb ct : Vector Byte 8) : nonceHalf (joinBlock nb ct) = nb := by
  ext i hi
  rw [nonceHalf_get _ ⟨i, hi⟩, joinBlock_low _ _ ⟨i, hi⟩]

/-- Bit `m` of a number after byte lane `i` was written. -/
theorem setLane_bit (v : Counter) (i : Fin 8) (b : Byte) (m : Nat) (hm : m < 64) :
    (setLane v i b).getLsbD m = if m / 8 = i.val then b.getLsbD (m % 8) else v.getLsbD m := by
  have hff : ∀ q, (255#64).getLsbD q = decide (q < 8) := by
    intro q
    by_cases hq : q < 64
    · interval_cases q <;> rfl
    · rw [BitVec.getLsbD_of_ge _ _ (by omega)]
      simp; omega
  simp only [setLane, BitVec.getLsbD_or, BitVec.getLsbD_and, BitVec.getLsbD_not, BitVec.getLsbD_shiftLeft,
    BitVec.getLsbD_setWidth]
  have e : (0xFF : Counter) = 255#64 := rfl
  rw [e, hff]
  by_cases h : m / 8 = i.val
  · have h1 : ¬ m < 8 * i.val := by omega
    have h2 : m - 8 * i.val < 8 := by omega
    have h3 : m - 8 * i.val = m % 8 := by omega
    have h5 : m % 8 < 8 := by omega
    have h6 : m % 8 < 64 := by omega
    simp [hm, h, h1, h3, h5, h6]
  · by_cases h1 : m < 8 * i.val
    · simp [hm, h, h1]
    · have h2 : ¬ m - 8 * i.val < 8 := by omega
      have h4 : b.getLsbD (m - 8 * i.val) = false := BitVec.getLsbD_of_ge _ _ (by omega)
      simp [hm, h, h2, h4]

/-! ### The key -/

theorem keyCopy_get (k : Vector Byte 32) (len : Byte) (i : Fin 32) :
    (keyCopy k len)[i.val] = if i.val < len.toNat then k[i.val] else 0#8 := by
  have hi := i.isLt
  simp only [keyCopy, Vector.getElem_mk, List.getElem_toArray, List.rightpad, keyBytes, List.getElem_append,
    List.length_take, Vector.length_toList, List.getElem_take, List.getElem_replicate, Vector.getElem_toList]
  split <;> split <;> first | rfl | omega

/-- Of the copy of a key no longer than 32 bytes, the bytes below its length are the key. -/
theorem keyBytes_keyCopy (k : Vector Byte 32) (len : Byte) : keyBytes (keyCopy k len) len = keyBytes k len := by
  simp only [keyBytes, keyCopy, List.rightpad, Vector.toList_mk, List.length_take, Vector.length_toList]
  by_cases h : len.toNat ≤ 32
  · rw [List.take_append_of_le_length (by simp; omega), List.take_take, min_self]
  · rw [show 32 - min len.toNat 32 = 0 by omega]
    simp [List.take_take]

/-! ### The keystream buffer -/

theorem frontIndex_val {l : Fin 17} (h : l.val ≠ 0) : (frontIndex l).val = 16 - l.val := by
  have := l.isLt
  simp only [frontIndex, Fin.ofNat]
  omega

@[simp] theorem popped_val (l : Fin 17) : (popped l).val = l.val - 1 := rfl

/-! ### `KEYLENS` (R5) -/

theorem keyLenSupported_iff (len : Byte) :
    keyLenSupported len = true ↔
      len = 16#8 ∨ (1 ≤ len.toNat ∧ len.toNat ≤ 32 ∧ Config.otherKeyLen len = true) := by
  simp [keyLenSupported, and_assoc]

/-! ### The checks of `CONSTRUCT` (R136) -/

@[simp] theorem nonceTooShort_value (l : Byte) : nonceTooShort .value l = false := rfl

@[simp] theorem nonceTooShort_buffer (l : Byte) : nonceTooShort .buffer l = decide (l.toNat < 8) := by
  simp [nonceTooShort]

/-- The error mask, by which of the two checks failed. -/
theorem constructErrors_eq (supported : Byte → Bool) (form : NonceForm) (s : State) :
    constructErrors supported form s =
      match nonceTooShort form s.nlen, supported s.klen with
      | false, true => 0x00#8
      | true, true => 0x01#8
      | false, false => 0x02#8
      | true, false => 0x03#8 := by
  unfold constructErrors
  cases nonceTooShort form s.nlen <;> cases supported s.klen <;> rfl

/-! ### The status view (R35) -/

theorem statusView_toNat (s : State) :
    (statusView s).toNat = s.kslen.val * 8 + s.err.toNat * 2 + s.valid.toNat := by
  have h1 := s.kslen.isLt
  have h2 := s.err.isLt
  have h3 : s.valid.toNat < 2 := Bool.toNat_lt _
  simp only [statusView, BitVec.toNat_ofNat]
  omega

end Sys2Proof.Machine
end

