-- ==== Sys2Proof/Laws/State.lean ====
section
/-! SUPPORT. What each update does to each field of State: one lemma per field per update, true by rfl. -/

namespace Sys2Proof.Machine

variable (s : State)

/-! ### `answer` -/

@[simp] theorem State.answer_n (r : Response) : (s.answer r).n = s.n := rfl
@[simp] theorem State.answer_cin (r : Response) : (s.answer r).cin = s.cin := rfl
@[simp] theorem State.answer_k (r : Response) : (s.answer r).k = s.k := rfl
@[simp] theorem State.answer_nlen (r : Response) : (s.answer r).nlen = s.nlen := rfl
@[simp] theorem State.answer_klen (r : Response) : (s.answer r).klen = s.klen := rfl
@[simp] theorem State.answer_cb (r : Response) : (s.answer r).cb = s.cb := rfl
@[simp] theorem State.answer_ctr (r : Response) : (s.answer r).ctr = s.ctr := rfl
@[simp] theorem State.answer_key (r : Response) : (s.answer r).key = s.key := rfl
@[simp] theorem State.answer_keylen (r : Response) : (s.answer r).keylen = s.keylen := rfl
@[simp] theorem State.answer_ks (r : Response) : (s.answer r).ks = s.ks := rfl
@[simp] theorem State.answer_kslen (r : Response) : (s.answer r).kslen = s.kslen := rfl
@[simp] theorem State.answer_valid (r : Response) : (s.answer r).valid = s.valid := rfl
@[simp] theorem State.answer_err (r : Response) : (s.answer r).err = s.err := rfl
@[simp] theorem State.answer_commands (r : Response) : (s.answer r).commands = s.commands := rfl
@[simp] theorem State.answer_responses (r : Response) : (s.answer r).responses = s.responses ++ [r] := rfl
@[simp] theorem State.answer_exchanges (r : Response) : (s.answer r).exchanges = s.exchanges := rfl

/-! ### `setN` -/

@[simp] theorem State.setN_n (i : Fin 8) (b : Byte) : (s.setN i b).n = s.n.set i.val b i.isLt := rfl
@[simp] theorem State.setN_cin (i : Fin 8) (b : Byte) : (s.setN i b).cin = s.cin := rfl
@[simp] theorem State.setN_k (i : Fin 8) (b : Byte) : (s.setN i b).k = s.k := rfl
@[simp] theorem State.setN_nlen (i : Fin 8) (b : Byte) : (s.setN i b).nlen = s.nlen := rfl
@[simp] theorem State.setN_klen (i : Fin 8) (b : Byte) : (s.setN i b).klen = s.klen := rfl
@[simp] theorem State.setN_cb (i : Fin 8) (b : Byte) : (s.setN i b).cb = s.cb := rfl
@[simp] theorem State.setN_ctr (i : Fin 8) (b : Byte) : (s.setN i b).ctr = s.ctr := rfl
@[simp] theorem State.setN_key (i : Fin 8) (b : Byte) : (s.setN i b).key = s.key := rfl
@[simp] theorem State.setN_keylen (i : Fin 8) (b : Byte) : (s.setN i b).keylen = s.keylen := rfl
@[simp] theorem State.setN_ks (i : Fin 8) (b : Byte) : (s.setN i b).ks = s.ks := rfl
@[simp] theorem State.setN_kslen (i : Fin 8) (b : Byte) : (s.setN i b).kslen = s.kslen := rfl
@[simp] theorem State.setN_valid (i : Fin 8) (b : Byte) : (s.setN i b).valid = s.valid := rfl
@[simp] theorem State.setN_err (i : Fin 8) (b : Byte) : (s.setN i b).err = s.err := rfl
@[simp] theorem State.setN_commands (i : Fin 8) (b : Byte) : (s.setN i b).commands = s.commands := rfl
@[simp] theorem State.setN_responses (i : Fin 8) (b : Byte) : (s.setN i b).responses = s.responses := rfl
@[simp] theorem State.setN_exchanges (i : Fin 8) (b : Byte) : (s.setN i b).exchanges = s.exchanges := rfl

/-! ### `setCinLane` -/

@[simp] theorem State.setCinLane_n (i : Fin 8) (b : Byte) : (s.setCinLane i b).n = s.n := rfl
@[simp] theorem State.setCinLane_cin (i : Fin 8) (b : Byte) : (s.setCinLane i b).cin = setLane s.cin i b := rfl
@[simp] theorem State.setCinLane_k (i : Fin 8) (b : Byte) : (s.setCinLane i b).k = s.k := rfl
@[simp] theorem State.setCinLane_nlen (i : Fin 8) (b : Byte) : (s.setCinLane i b).nlen = s.nlen := rfl
@[simp] theorem State.setCinLane_klen (i : Fin 8) (b : Byte) : (s.setCinLane i b).klen = s.klen := rfl
@[simp] theorem State.setCinLane_cb (i : Fin 8) (b : Byte) : (s.setCinLane i b).cb = s.cb := rfl
@[simp] theorem State.setCinLane_ctr (i : Fin 8) (b : Byte) : (s.setCinLane i b).ctr = s.ctr := rfl
@[simp] theorem State.setCinLane_key (i : Fin 8) (b : Byte) : (s.setCinLane i b).key = s.key := rfl
@[simp] theorem State.setCinLane_keylen (i : Fin 8) (b : Byte) : (s.setCinLane i b).keylen = s.keylen := rfl
@[simp] theorem State.setCinLane_ks (i : Fin 8) (b : Byte) : (s.setCinLane i b).ks = s.ks := rfl
@[simp] theorem State.setCinLane_kslen (i : Fin 8) (b : Byte) : (s.setCinLane i b).kslen = s.kslen := rfl
@[simp] theorem State.setCinLane_valid (i : Fin 8) (b : Byte) : (s.setCinLane i b).valid = s.valid := rfl
@[simp] theorem State.setCinLane_err (i : Fin 8) (b : Byte) : (s.setCinLane i b).err = s.err := rfl
@[simp] theorem State.setCinLane_commands (i : Fin 8) (b : Byte) : (s.setCinLane i b).commands = s.commands := rfl
@[simp] theorem State.setCinLane_responses (i : Fin 8) (b : Byte) : (s.setCinLane i b).responses = s.responses := rfl
@[simp] theorem State.setCinLane_exchanges (i : Fin 8) (b : Byte) : (s.setCinLane i b).exchanges = s.exchanges := rfl

/-! ### `setK` -/

@[simp] theorem State.setK_n (i : Fin 32) (b : Byte) : (s.setK i b).n = s.n := rfl
@[simp] theorem State.setK_cin (i : Fin 32) (b : Byte) : (s.setK i b).cin = s.cin := rfl
@[simp] theorem State.setK_k (i : Fin 32) (b : Byte) : (s.setK i b).k = s.k.set i.val b i.isLt := rfl
@[simp] theorem State.setK_nlen (i : Fin 32) (b : Byte) : (s.setK i b).nlen = s.nlen := rfl
@[simp] theorem State.setK_klen (i : Fin 32) (b : Byte) : (s.setK i b).klen = s.klen := rfl
@[simp] theorem State.setK_cb (i : Fin 32) (b : Byte) : (s.setK i b).cb = s.cb := rfl
@[simp] theorem State.setK_ctr (i : Fin 32) (b : Byte) : (s.setK i b).ctr = s.ctr := rfl
@[simp] theorem State.setK_key (i : Fin 32) (b : Byte) : (s.setK i b).key = s.key := rfl
@[simp] theorem State.setK_keylen (i : Fin 32) (b : Byte) : (s.setK i b).keylen = s.keylen := rfl
@[simp] theorem State.setK_ks (i : Fin 32) (b : Byte) : (s.setK i b).ks = s.ks := rfl
@[simp] theorem State.setK_kslen (i : Fin 32) (b : Byte) : (s.setK i b).kslen = s.kslen := rfl
@[simp] theorem State.setK_valid (i : Fin 32) (b : Byte) : (s.setK i b).valid = s.valid := rfl
@[simp] theorem State.setK_err (i : Fin 32) (b : Byte) : (s.setK i b).err = s.err := rfl
@[simp] theorem State.setK_commands (i : Fin 32) (b : Byte) : (s.setK i b).commands = s.commands := rfl
@[simp] theorem State.setK_responses (i : Fin 32) (b : Byte) : (s.setK i b).responses = s.responses := rfl
@[simp] theorem State.setK_exchanges (i : Fin 32) (b : Byte) : (s.setK i b).exchanges = s.exchanges := rfl

/-! ### `setNlen` -/

@[simp] theorem State.setNlen_n (b : Byte) : (s.setNlen b).n = s.n := rfl
@[simp] theorem State.setNlen_cin (b : Byte) : (s.setNlen b).cin = s.cin := rfl
@[simp] theorem State.setNlen_k (b : Byte) : (s.setNlen b).k = s.k := rfl
@[simp] theorem State.setNlen_nlen (b : Byte) : (s.setNlen b).nlen = b := rfl
@[simp] theorem State.setNlen_klen (b : Byte) : (s.setNlen b).klen = s.klen := rfl
@[simp] theorem State.setNlen_cb (b : Byte) : (s.setNlen b).cb = s.cb := rfl
@[simp] theorem State.setNlen_ctr (b : Byte) : (s.setNlen b).ctr = s.ctr := rfl
@[simp] theorem State.setNlen_key (b : Byte) : (s.setNlen b).key = s.key := rfl
@[simp] theorem State.setNlen_keylen (b : Byte) : (s.setNlen b).keylen = s.keylen := rfl
@[simp] theorem State.setNlen_ks (b : Byte) : (s.setNlen b).ks = s.ks := rfl
@[simp] theorem State.setNlen_kslen (b : Byte) : (s.setNlen b).kslen = s.kslen := rfl
@[simp] theorem State.setNlen_valid (b : Byte) : (s.setNlen b).valid = s.valid := rfl
@[simp] theorem State.setNlen_err (b : Byte) : (s.setNlen b).err = s.err := rfl
@[simp] theorem State.setNlen_commands (b : Byte) : (s.setNlen b).commands = s.commands := rfl
@[simp] theorem State.setNlen_responses (b : Byte) : (s.setNlen b).responses = s.responses := rfl
@[simp] theorem State.setNlen_exchanges (b : Byte) : (s.setNlen b).exchanges = s.exchanges := rfl

/-! ### `setKlen` -/

@[simp] theorem State.setKlen_n (b : Byte) : (s.setKlen b).n = s.n := rfl
@[simp] theorem State.setKlen_cin (b : Byte) : (s.setKlen b).cin = s.cin := rfl
@[simp] theorem State.setKlen_k (b : Byte) : (s.setKlen b).k = s.k := rfl
@[simp] theorem State.setKlen_nlen (b : Byte) : (s.setKlen b).nlen = s.nlen := rfl
@[simp] theorem State.setKlen_klen (b : Byte) : (s.setKlen b).klen = b := rfl
@[simp] theorem State.setKlen_cb (b : Byte) : (s.setKlen b).cb = s.cb := rfl
@[simp] theorem State.setKlen_ctr (b : Byte) : (s.setKlen b).ctr = s.ctr := rfl
@[simp] theorem State.setKlen_key (b : Byte) : (s.setKlen b).key = s.key := rfl
@[simp] theorem State.setKlen_keylen (b : Byte) : (s.setKlen b).keylen = s.keylen := rfl
@[simp] theorem State.setKlen_ks (b : Byte) : (s.setKlen b).ks = s.ks := rfl
@[simp] theorem State.setKlen_kslen (b : Byte) : (s.setKlen b).kslen = s.kslen := rfl
@[simp] theorem State.setKlen_valid (b : Byte) : (s.setKlen b).valid = s.valid := rfl
@[simp] theorem State.setKlen_err (b : Byte) : (s.setKlen b).err = s.err := rfl
@[simp] theorem State.setKlen_commands (b : Byte) : (s.setKlen b).commands = s.commands := rfl
@[simp] theorem State.setKlen_responses (b : Byte) : (s.setKlen b).responses = s.responses := rfl
@[simp] theorem State.setKlen_exchanges (b : Byte) : (s.setKlen b).exchanges = s.exchanges := rfl

/-! ### `discard` -/

@[simp] theorem State.discard_n : s.discard.n = s.n := rfl
@[simp] theorem State.discard_cin : s.discard.cin = s.cin := rfl
@[simp] theorem State.discard_k : s.discard.k = s.k := rfl
@[simp] theorem State.discard_nlen : s.discard.nlen = s.nlen := rfl
@[simp] theorem State.discard_klen : s.discard.klen = s.klen := rfl
@[simp] theorem State.discard_cb : s.discard.cb = Vector.replicate 16 0 := rfl
@[simp] theorem State.discard_ctr : s.discard.ctr = 0 := rfl
@[simp] theorem State.discard_key : s.discard.key = Vector.replicate 32 0 := rfl
@[simp] theorem State.discard_keylen : s.discard.keylen = 0 := rfl
@[simp] theorem State.discard_ks : s.discard.ks = Vector.replicate 16 0 := rfl
@[simp] theorem State.discard_kslen : s.discard.kslen = 0 := rfl
@[simp] theorem State.discard_valid : s.discard.valid = false := rfl
@[simp] theorem State.discard_err : s.discard.err = s.err := rfl
@[simp] theorem State.discard_commands : s.discard.commands = s.commands := rfl
@[simp] theorem State.discard_responses : s.discard.responses = s.responses := rfl
@[simp] theorem State.discard_exchanges : s.discard.exchanges = s.exchanges := rfl

/-! ### `setErr` -/

@[simp] theorem State.setErr_n (e : BitVec 2) : (s.setErr e).n = s.n := rfl
@[simp] theorem State.setErr_cin (e : BitVec 2) : (s.setErr e).cin = s.cin := rfl
@[simp] theorem State.setErr_k (e : BitVec 2) : (s.setErr e).k = s.k := rfl
@[simp] theorem State.setErr_nlen (e : BitVec 2) : (s.setErr e).nlen = s.nlen := rfl
@[simp] theorem State.setErr_klen (e : BitVec 2) : (s.setErr e).klen = s.klen := rfl
@[simp] theorem State.setErr_cb (e : BitVec 2) : (s.setErr e).cb = s.cb := rfl
@[simp] theorem State.setErr_ctr (e : BitVec 2) : (s.setErr e).ctr = s.ctr := rfl
@[simp] theorem State.setErr_key (e : BitVec 2) : (s.setErr e).key = s.key := rfl
@[simp] theorem State.setErr_keylen (e : BitVec 2) : (s.setErr e).keylen = s.keylen := rfl
@[simp] theorem State.setErr_ks (e : BitVec 2) : (s.setErr e).ks = s.ks := rfl
@[simp] theorem State.setErr_kslen (e : BitVec 2) : (s.setErr e).kslen = s.kslen := rfl
@[simp] theorem State.setErr_valid (e : BitVec 2) : (s.setErr e).valid = s.valid := rfl
@[simp] theorem State.setErr_err (e : BitVec 2) : (s.setErr e).err = e := rfl
@[simp] theorem State.setErr_commands (e : BitVec 2) : (s.setErr e).commands = s.commands := rfl
@[simp] theorem State.setErr_responses (e : BitVec 2) : (s.setErr e).responses = s.responses := rfl
@[simp] theorem State.setErr_exchanges (e : BitVec 2) : (s.setErr e).exchanges = s.exchanges := rfl

/-! ### `cbbBuild` -/

@[simp] theorem State.cbbBuild_n (nb : Vector Byte 8) (c : Counter) : (s.cbbBuild nb c).n = s.n := rfl
@[simp] theorem State.cbbBuild_cin (nb : Vector Byte 8) (c : Counter) : (s.cbbBuild nb c).cin = s.cin := rfl
@[simp] theorem State.cbbBuild_k (nb : Vector Byte 8) (c : Counter) : (s.cbbBuild nb c).k = s.k := rfl
@[simp] theorem State.cbbBuild_nlen (nb : Vector Byte 8) (c : Counter) : (s.cbbBuild nb c).nlen = s.nlen := rfl
@[simp] theorem State.cbbBuild_klen (nb : Vector Byte 8) (c : Counter) : (s.cbbBuild nb c).klen = s.klen := rfl
@[simp] theorem State.cbbBuild_cb (nb : Vector Byte 8) (c : Counter) : (s.cbbBuild nb c).cb = joinBlock nb (be64 c) := rfl
@[simp] theorem State.cbbBuild_ctr (nb : Vector Byte 8) (c : Counter) : (s.cbbBuild nb c).ctr = c := rfl
@[simp] theorem State.cbbBuild_key (nb : Vector Byte 8) (c : Counter) : (s.cbbBuild nb c).key = s.key := rfl
@[simp] theorem State.cbbBuild_keylen (nb : Vector Byte 8) (c : Counter) : (s.cbbBuild nb c).keylen = s.keylen := rfl
@[simp] theorem State.cbbBuild_ks (nb : Vector Byte 8) (c : Counter) : (s.cbbBuild nb c).ks = s.ks := rfl
@[simp] theorem State.cbbBuild_kslen (nb : Vector Byte 8) (c : Counter) : (s.cbbBuild nb c).kslen = s.kslen := rfl
@[simp] theorem State.cbbBuild_valid (nb : Vector Byte 8) (c : Counter) : (s.cbbBuild nb c).valid = s.valid := rfl
@[simp] theorem State.cbbBuild_err (nb : Vector Byte 8) (c : Counter) : (s.cbbBuild nb c).err = s.err := rfl
@[simp] theorem State.cbbBuild_commands (nb : Vector Byte 8) (c : Counter) : (s.cbbBuild nb c).commands = s.commands := rfl
@[simp] theorem State.cbbBuild_responses (nb : Vector Byte 8) (c : Counter) : (s.cbbBuild nb c).responses = s.responses := rfl
@[simp] theorem State.cbbBuild_exchanges (nb : Vector Byte 8) (c : Counter) : (s.cbbBuild nb c).exchanges = s.exchanges := rfl

/-! ### `takeKey` -/

@[simp] theorem State.takeKey_n : s.takeKey.n = s.n := rfl
@[simp] theorem State.takeKey_cin : s.takeKey.cin = s.cin := rfl
@[simp] theorem State.takeKey_k : s.takeKey.k = s.k := rfl
@[simp] theorem State.takeKey_nlen : s.takeKey.nlen = s.nlen := rfl
@[simp] theorem State.takeKey_klen : s.takeKey.klen = s.klen := rfl
@[simp] theorem State.takeKey_cb : s.takeKey.cb = s.cb := rfl
@[simp] theorem State.takeKey_ctr : s.takeKey.ctr = s.ctr := rfl
@[simp] theorem State.takeKey_key : s.takeKey.key = keyCopy s.k s.klen := rfl
@[simp] theorem State.takeKey_keylen : s.takeKey.keylen = s.klen := rfl
@[simp] theorem State.takeKey_ks : s.takeKey.ks = s.ks := rfl
@[simp] theorem State.takeKey_kslen : s.takeKey.kslen = s.kslen := rfl
@[simp] theorem State.takeKey_valid : s.takeKey.valid = s.valid := rfl
@[simp] theorem State.takeKey_err : s.takeKey.err = s.err := rfl
@[simp] theorem State.takeKey_commands : s.takeKey.commands = s.commands := rfl
@[simp] theorem State.takeKey_responses : s.takeKey.responses = s.responses := rfl
@[simp] theorem State.takeKey_exchanges : s.takeKey.exchanges = s.exchanges := rfl

/-! ### `setValid` -/

@[simp] theorem State.setValid_n : s.setValid.n = s.n := rfl
@[simp] theorem State.setValid_cin : s.setValid.cin = s.cin := rfl
@[simp] theorem State.setValid_k : s.setValid.k = s.k := rfl
@[simp] theorem State.setValid_nlen : s.setValid.nlen = s.nlen := rfl
@[simp] theorem State.setValid_klen : s.setValid.klen = s.klen := rfl
@[simp] theorem State.setValid_cb : s.setValid.cb = s.cb := rfl
@[simp] theorem State.setValid_ctr : s.setValid.ctr = s.ctr := rfl
@[simp] theorem State.setValid_key : s.setValid.key = s.key := rfl
@[simp] theorem State.setValid_keylen : s.setValid.keylen = s.keylen := rfl
@[simp] theorem State.setValid_ks : s.setValid.ks = s.ks := rfl
@[simp] theorem State.setValid_kslen : s.setValid.kslen = s.kslen := rfl
@[simp] theorem State.setValid_valid : s.setValid.valid = true := rfl
@[simp] theorem State.setValid_err : s.setValid.err = s.err := rfl
@[simp] theorem State.setValid_commands : s.setValid.commands = s.commands := rfl
@[simp] theorem State.setValid_responses : s.setValid.responses = s.responses := rfl
@[simp] theorem State.setValid_exchanges : s.setValid.exchanges = s.exchanges := rfl

/-! ### `cbbInc` -/

@[simp] theorem State.cbbInc_n : s.cbbInc.n = s.n := rfl
@[simp] theorem State.cbbInc_cin : s.cbbInc.cin = s.cin := rfl
@[simp] theorem State.cbbInc_k : s.cbbInc.k = s.k := rfl
@[simp] theorem State.cbbInc_nlen : s.cbbInc.nlen = s.nlen := rfl
@[simp] theorem State.cbbInc_klen : s.cbbInc.klen = s.klen := rfl
@[simp] theorem State.cbbInc_cb : s.cbbInc.cb = joinBlock (nonceHalf s.cb) (be64 (s.ctr + 1)) := rfl
@[simp] theorem State.cbbInc_ctr : s.cbbInc.ctr = s.ctr + 1 := rfl
@[simp] theorem State.cbbInc_key : s.cbbInc.key = s.key := rfl
@[simp] theorem State.cbbInc_keylen : s.cbbInc.keylen = s.keylen := rfl
@[simp] theorem State.cbbInc_ks : s.cbbInc.ks = s.ks := rfl
@[simp] theorem State.cbbInc_kslen : s.cbbInc.kslen = s.kslen := rfl
@[simp] theorem State.cbbInc_valid : s.cbbInc.valid = s.valid := rfl
@[simp] theorem State.cbbInc_err : s.cbbInc.err = s.err := rfl
@[simp] theorem State.cbbInc_commands : s.cbbInc.commands = s.commands := rfl
@[simp] theorem State.cbbInc_responses : s.cbbInc.responses = s.responses := rfl
@[simp] theorem State.cbbInc_exchanges : s.cbbInc.exchanges = s.exchanges := rfl

/-! ### `exchange` -/

@[simp] theorem State.exchange_n (enc : List Byte → Block → Block) : (s.exchange enc).n = s.n := rfl
@[simp] theorem State.exchange_cin (enc : List Byte → Block → Block) : (s.exchange enc).cin = s.cin := rfl
@[simp] theorem State.exchange_k (enc : List Byte → Block → Block) : (s.exchange enc).k = s.k := rfl
@[simp] theorem State.exchange_nlen (enc : List Byte → Block → Block) : (s.exchange enc).nlen = s.nlen := rfl
@[simp] theorem State.exchange_klen (enc : List Byte → Block → Block) : (s.exchange enc).klen = s.klen := rfl
@[simp] theorem State.exchange_cb (enc : List Byte → Block → Block) : (s.exchange enc).cb = s.cb := rfl
@[simp] theorem State.exchange_ctr (enc : List Byte → Block → Block) : (s.exchange enc).ctr = s.ctr := rfl
@[simp] theorem State.exchange_key (enc : List Byte → Block → Block) : (s.exchange enc).key = s.key := rfl
@[simp] theorem State.exchange_keylen (enc : List Byte → Block → Block) : (s.exchange enc).keylen = s.keylen := rfl
@[simp] theorem State.exchange_ks (enc : List Byte → Block → Block) : (s.exchange enc).ks = enc (keyBytes s.key s.keylen) s.cb := rfl
@[simp] theorem State.exchange_kslen (enc : List Byte → Block → Block) : (s.exchange enc).kslen = 16 := rfl
@[simp] theorem State.exchange_valid (enc : List Byte → Block → Block) : (s.exchange enc).valid = s.valid := rfl
@[simp] theorem State.exchange_err (enc : List Byte → Block → Block) : (s.exchange enc).err = s.err := rfl
@[simp] theorem State.exchange_commands (enc : List Byte → Block → Block) : (s.exchange enc).commands = s.commands := rfl
@[simp] theorem State.exchange_responses (enc : List Byte → Block → Block) : (s.exchange enc).responses = s.responses := rfl
@[simp] theorem State.exchange_exchanges (enc : List Byte → Block → Block) : (s.exchange enc).exchanges = s.exchanges ++
      [⟨s.keylen, keyBytes s.key s.keylen, s.cb, enc (keyBytes s.key s.keylen) s.cb⟩] := rfl

/-! ### `pop` -/

@[simp] theorem State.pop_n : s.pop.n = s.n := rfl
@[simp] theorem State.pop_cin : s.pop.cin = s.cin := rfl
@[simp] theorem State.pop_k : s.pop.k = s.k := rfl
@[simp] theorem State.pop_nlen : s.pop.nlen = s.nlen := rfl
@[simp] theorem State.pop_klen : s.pop.klen = s.klen := rfl
@[simp] theorem State.pop_cb : s.pop.cb = s.cb := rfl
@[simp] theorem State.pop_ctr : s.pop.ctr = s.ctr := rfl
@[simp] theorem State.pop_key : s.pop.key = s.key := rfl
@[simp] theorem State.pop_keylen : s.pop.keylen = s.keylen := rfl
@[simp] theorem State.pop_ks : s.pop.ks = s.ks := rfl
@[simp] theorem State.pop_kslen : s.pop.kslen = popped s.kslen := rfl
@[simp] theorem State.pop_valid : s.pop.valid = s.valid := rfl
@[simp] theorem State.pop_err : s.pop.err = s.err := rfl
@[simp] theorem State.pop_commands : s.pop.commands = s.commands := rfl
@[simp] theorem State.pop_responses : s.pop.responses = s.responses := rfl
@[simp] theorem State.pop_exchanges : s.pop.exchanges = s.exchanges := rfl

/-! ### `issue` -/

@[simp] theorem State.issue_n (ws : List Word) : (s.issue ws).n = s.n := rfl
@[simp] theorem State.issue_cin (ws : List Word) : (s.issue ws).cin = s.cin := rfl
@[simp] theorem State.issue_k (ws : List Word) : (s.issue ws).k = s.k := rfl
@[simp] theorem State.issue_nlen (ws : List Word) : (s.issue ws).nlen = s.nlen := rfl
@[simp] theorem State.issue_klen (ws : List Word) : (s.issue ws).klen = s.klen := rfl
@[simp] theorem State.issue_cb (ws : List Word) : (s.issue ws).cb = s.cb := rfl
@[simp] theorem State.issue_ctr (ws : List Word) : (s.issue ws).ctr = s.ctr := rfl
@[simp] theorem State.issue_key (ws : List Word) : (s.issue ws).key = s.key := rfl
@[simp] theorem State.issue_keylen (ws : List Word) : (s.issue ws).keylen = s.keylen := rfl
@[simp] theorem State.issue_ks (ws : List Word) : (s.issue ws).ks = s.ks := rfl
@[simp] theorem State.issue_kslen (ws : List Word) : (s.issue ws).kslen = s.kslen := rfl
@[simp] theorem State.issue_valid (ws : List Word) : (s.issue ws).valid = s.valid := rfl
@[simp] theorem State.issue_err (ws : List Word) : (s.issue ws).err = s.err := rfl
@[simp] theorem State.issue_commands (ws : List Word) : (s.issue ws).commands = s.commands ++ ws := rfl
@[simp] theorem State.issue_responses (ws : List Word) : (s.issue ws).responses = s.responses := rfl
@[simp] theorem State.issue_exchanges (ws : List Word) : (s.issue ws).exchanges = s.exchanges := rfl

/-! ### Responding and raising are answers -/

@[simp] theorem State.respond_eq_answer (d : Byte) : s.respond d = s.answer ⟨0, d⟩ := rfl

@[simp] theorem State.raise_eq_answer (c : Byte) : s.raise c = s.answer ⟨c, 0⟩ := rfl

end Sys2Proof.Machine
end

