-- ==== Sys2Proof/Laws/Ops.lean ====
section
/-! SUPPORT. One lemma per shared operation: everything it can do. -/

namespace Sys2Proof.Machine

variable (s : State)

/-! ### The command port -/

theorem State.takeCommand_nil (h : s.commands = []) : s.takeCommand = none := by
  simp [State.takeCommand, h]

theorem State.takeCommand_cons {w : Word} {rest : List Word} (h : s.commands = w :: rest) :
    s.takeCommand = some (w, { s with commands := rest }) := by
  simp [State.takeCommand, h]

/-! ### The lifecycle check (R174) -/

theorem State.whenReady_ready {action : State → State} (h : s.valid = true) : s.whenReady action = action s := by
  simp [State.whenReady, h]

theorem State.whenReady_not {action : State → State} (h : s.valid = false) :
    s.whenReady action = s.answer ⟨0x04, 0⟩ := by
  simp [State.whenReady, h, eState]

/-! ### The refill (R137, R138) -/

theorem State.refillIfEmpty_empty (enc : List Byte → Block → Block) (h : s.kslen = 0) :
    s.refillIfEmpty enc = (s.exchange enc).cbbInc := by
  simp [State.refillIfEmpty, State.refill, h]

theorem State.refillIfEmpty_nonempty (enc : List Byte → Block → Block) (h : s.kslen ≠ 0) :
    s.refillIfEmpty enc = s := by
  simp [State.refillIfEmpty, h]

/-- The front byte of a buffer that is not empty. -/
theorem State.front_eq (h : s.kslen.val ≠ 0) : s.front = s.ks[16 - s.kslen.val] := by
  simp only [State.front]
  show s.ks[(frontIndex s.kslen).val] = _
  simp only [frontIndex_val h]

end Sys2Proof.Machine
end

