-- ==== Sys2Proof/Laws/Exec.lean ====
section
/-! SUPPORT. What `exec` answers for each command, once and for all: the provers cite these and unfold nothing. -/

namespace Sys2Proof.Machine

variable (s : State)

/-! ### Staging (R110 to R114) -/

theorem exec_ldn {idx : Byte} (b : Byte) (h : idx.toNat < 8) :
    exec (.ldn idx b) s = .next ((s.setN ⟨idx.toNat, h⟩ b).answer ⟨0, 0⟩) := by
  simp [exec, execLdn, indexInto_of_lt h]

theorem exec_ldc {idx : Byte} (b : Byte) (h : idx.toNat < 8) :
    exec (.ldc idx b) s = .next ((s.setCinLane ⟨idx.toNat, h⟩ b).answer ⟨0, 0⟩) := by
  simp [exec, execLdc, indexInto_of_lt h]

theorem exec_ldk {idx : Byte} (b : Byte) (h : idx.toNat < 32) :
    exec (.ldk idx b) s = .next ((s.setK ⟨idx.toNat, h⟩ b).answer ⟨0, 0⟩) := by
  simp [exec, execLdk, indexInto_of_lt h]

theorem exec_setnl (b : Byte) : exec (.setnl b) s = .next ((s.setNlen b).answer ⟨0, 0⟩) := rfl

theorem exec_setkl (b : Byte) : exec (.setkl b) s = .next ((s.setKlen b).answer ⟨0, 0⟩) := rfl

/-! ### The builder (R122, R123) -/

theorem exec_curblk_ready {idx : Byte} (h : idx.toNat < 16) (hv : s.valid = true) :
    exec (.curblk idx) s = .next (s.answer ⟨0, s.cb[idx.toNat]⟩) := by
  simp [exec, execCurblk, indexInto_of_lt h, s.whenReady_ready hv]

theorem exec_curblk_not_ready {idx : Byte} (h : idx.toNat < 16) (hv : s.valid = false) :
    exec (.curblk idx) s = .next (s.answer ⟨0x04, 0⟩) := by
  simp [exec, execCurblk, indexInto_of_lt h, s.whenReady_not hv]

theorem exec_inc_ready (hv : s.valid = true) : exec .inc s = .next (s.cbbInc.answer ⟨0, 0⟩) := by
  simp [exec, execInc, s.whenReady_ready hv]

theorem exec_inc_not_ready (hv : s.valid = false) : exec .inc s = .next (s.answer ⟨0x04, 0⟩) := by
  simp [exec, execInc, s.whenReady_not hv]

/-! ### The cipher (R135, R139) -/

theorem exec_construct_zero : exec (.construct 0) s = .next (s.constructWith keyLenSupported .value) := rfl

theorem exec_construct_one : exec (.construct 1) s = .next (s.constructWith keyLenSupported .buffer) := rfl

/-- A construction whose checks pass. -/
theorem State.constructWith_ok {supported : Byte → Bool} {form : NonceForm}
    (hn : nonceTooShort form s.nlen = false) (hk : supported s.klen = true) :
    s.constructWith supported form =
      ((((s.discard.setErr 0).cbbBuild s.n s.cin).takeKey.setValid).answer ⟨0, 0⟩) := by
  simp [State.constructWith, constructErrors_eq, hn, hk, errBits]

/-- A construction that fails, with the error mask `e`. -/
theorem State.constructWith_error {supported : Byte → Bool} {form : NonceForm} {e : Byte}
    (he : constructErrors supported form s = e) (hne : e ≠ 0#8) :
    s.constructWith supported form = (s.discard.setErr (errBits e)).answer ⟨e, 0⟩ := by
  simp [State.constructWith, he, hne]

theorem exec_xorb_not_ready (b : Byte) (hv : s.valid = false) :
    exec (.xorb b) s = .next (s.answer ⟨0x04, 0⟩) := by
  simp [exec, execXorb, s.whenReady_not hv]

/-- An `XORB` that finds bytes in the buffer. -/
theorem exec_xorb_buffered (b : Byte) (hv : s.valid = true) (hl : s.kslen.val ≠ 0) :
    exec (.xorb b) s = .next (s.pop.answer ⟨0, b ^^^ s.ks[16 - s.kslen.val]⟩) := by
  have h0 : s.kslen ≠ 0 := by
    intro h; exact hl (by rw [h]; rfl)
  simp [exec, execXorb, s.whenReady_ready hv, State.xorbWith, s.refillIfEmpty_nonempty _ h0, s.front_eq hl]

/-- An `XORB` that finds the buffer empty. -/
theorem exec_xorb_empty (b : Byte) (hv : s.valid = true) (hl : s.kslen = 0) :
    exec (.xorb b) s = .next (((s.exchange Config.blkEnc).cbbInc.pop).answer
      ⟨0, b ^^^ (Config.blkEnc (keyBytes s.key s.keylen) s.cb)[0]⟩) := by
  have hf : (s.exchange Config.blkEnc).cbbInc.front = (Config.blkEnc (keyBytes s.key s.keylen) s.cb)[0] := by
    rw [State.front_eq _ (by simp)]
    simp
  simp [exec, execXorb, s.whenReady_ready hv, State.xorbWith, s.refillIfEmpty_empty _ hl, hf]

/-! ### System commands (R160, R161) -/

theorem exec_status : exec .status s = .next (s.answer ⟨0, statusView s⟩) := rfl

theorem exec_destroy : exec .destroy s = .next ((s.discard.setErr 0).answer ⟨0, 0⟩) := rfl

end Sys2Proof.Machine
end

