-- ==== Sys2Proof/Laws/Step.lean ====
section
/-! SUPPORT. What one step can be: a decoded command, an illegal word, or nothing to do. -/

namespace Sys2Proof.Machine

variable {s : State}

/-- A step that finds an illegal word. -/
theorem step_illegal {w : Word} {rest : List Word} {e : Illegal} (h : s.commands = w :: rest)
    (hd : decode w = .error e) : step s = .next (State.answer { s with commands := rest } ⟨0x08, 0⟩) := by
  simp [step, s.takeCommand_cons h, hd, illegalCommand, eIllegal]

/-- A step that finds a command. -/
theorem step_command {w : Word} {rest : List Word} {i : Instr} (h : s.commands = w :: rest)
    (hd : decode w = .ok i) : step s = exec i { s with commands := rest } := by
  simp [step, s.takeCommand_cons h, hd]

/-- Everything a step can be. -/
theorem step_cases (s : State) :
    (s.commands = [] ∧ step s = .next s) ∨
    (∃ w rest e, s.commands = w :: rest ∧ decode w = .error e ∧
      step s = .next (State.answer { s with commands := rest } ⟨0x08, 0⟩)) ∨
    ∃ w rest i, s.commands = w :: rest ∧ decode w = .ok i ∧ step s = exec i { s with commands := rest } := by
  cases h : s.commands with
  | nil => exact .inl ⟨rfl, by simp [step, s.takeCommand_nil h, idle]⟩
  | cons w rest =>
    cases hd : decode w with
    | error e => exact .inr (.inl ⟨w, rest, e, rfl, hd, step_illegal h hd⟩)
    | ok i => exact .inr (.inr ⟨w, rest, i, rfl, hd, step_command h hd⟩)

end Sys2Proof.Machine
end

