-- ==== Sys2Proof/Laws/Effect.lean ====
section
/-! SUPPORT. Everything one command can do, said once: the provers take a command apart with `effect_of_exec` and a
step with `step_cases`, and unfold no meaning. -/

namespace Sys2Proof.Machine

/-! ### The two outcomes of `CONSTRUCT` (R135, R173) -/

variable (s : State)

/-- `CONSTRUCT` looks at the nonce form only through its check. -/
theorem exec_construct_form {nf : Byte} (h : nf.toNat < 2) :
    ∃ form, exec (.construct nf) s = .next (s.constructWith keyLenSupported form) ∧
      (nonceTooShort form s.nlen = true ↔ NonceError nf s) := by
  rcases nf_eq_zero_or_one h with rfl | rfl
  · exact ⟨.value, rfl, by simp [NonceError]⟩
  · exact ⟨.buffer, rfl, by simp [NonceError]⟩

theorem exec_construct_ok {nf : Byte} (h : nf.toNat < 2) (hn : ¬ NonceError nf s) (hk : ¬ KeyError s) :
    exec (.construct nf) s =
      .next ((((s.discard.setErr 0).cbbBuild s.n s.cin).takeKey.setValid).answer ⟨0, 0⟩) := by
  obtain ⟨form, h1, h2⟩ := exec_construct_form s h
  rw [h1, s.constructWith_ok (by simpa [hn] using h2) (by simpa [KeyError] using hk)]

theorem exec_construct_error {nf : Byte} (h : nf.toNat < 2) (he : NonceError nf s ∨ KeyError s) :
    ∃ e : Byte, exec (.construct nf) s = .next ((s.discard.setErr (errBits e)).answer ⟨e, 0⟩) ∧
      e ≠ 0#8 ∧ e.toNat < 4 ∧ (e.getLsbD 0 = true ↔ NonceError nf s) ∧ (e.getLsbD 1 = true ↔ KeyError s) := by
  obtain ⟨form, h1, h2⟩ := exec_construct_form s h
  rw [← h2] at he ⊢
  have hc := constructErrors_eq keyLenSupported form s
  unfold KeyError at *
  cases hA : nonceTooShort form s.nlen <;> cases hB : keyLenSupported s.klen <;> simp only [hA, hB] at hc he
  · exact ⟨2#8, by rw [h1, s.constructWith_error hc (by decide)], by decide⟩
  · simp at he
  · exact ⟨3#8, by rw [h1, s.constructWith_error hc (by decide)], by decide⟩
  · exact ⟨1#8, by rw [h1, s.constructWith_error hc (by decide)], by decide⟩

/-! ### The effects of a well-formed command -/

/-- `Effect s i t`: the well-formed command `i` in state `s` leads to `t`; one case per outcome the rules give. -/
inductive Effect (s : State) : Instr → State → Prop
  | ldn (idx b : Byte) (h : idx.toNat < 8) : Effect s (.ldn idx b) ((s.setN ⟨idx.toNat, h⟩ b).answer ⟨0, 0⟩)
  | ldc (idx b : Byte) (h : idx.toNat < 8) : Effect s (.ldc idx b) ((s.setCinLane ⟨idx.toNat, h⟩ b).answer ⟨0, 0⟩)
  | ldk (idx b : Byte) (h : idx.toNat < 32) : Effect s (.ldk idx b) ((s.setK ⟨idx.toNat, h⟩ b).answer ⟨0, 0⟩)
  | setnl (b : Byte) : Effect s (.setnl b) ((s.setNlen b).answer ⟨0, 0⟩)
  | setkl (b : Byte) : Effect s (.setkl b) ((s.setKlen b).answer ⟨0, 0⟩)
  | constructOk (nf : Byte) (h : nf.toNat < 2) (hn : ¬ NonceError nf s) (hk : ¬ KeyError s) :
      Effect s (.construct nf)
        ((((s.discard.setErr 0).cbbBuild s.n s.cin).takeKey.setValid).answer ⟨0, 0⟩)
  | constructError (nf e : Byte) (h : nf.toNat < 2) (h0 : e ≠ 0#8) (h4 : e.toNat < 4)
      (hn : e.getLsbD 0 = true ↔ NonceError nf s) (hk : e.getLsbD 1 = true ↔ KeyError s) :
      Effect s (.construct nf) ((s.discard.setErr (errBits e)).answer ⟨e, 0⟩)
  | noCurblk (idx : Byte) (h : idx.toNat < 16) (hv : s.valid = false) : Effect s (.curblk idx) (s.answer ⟨0x04, 0⟩)
  | noInc (hv : s.valid = false) : Effect s .inc (s.answer ⟨0x04, 0⟩)
  | noXorb (b : Byte) (hv : s.valid = false) : Effect s (.xorb b) (s.answer ⟨0x04, 0⟩)
  | curblk (idx : Byte) (h : idx.toNat < 16) (hv : s.valid = true) :
      Effect s (.curblk idx) (s.answer ⟨0, s.cb[idx.toNat]⟩)
  | inc (hv : s.valid = true) : Effect s .inc (s.cbbInc.answer ⟨0, 0⟩)
  | xorbBuffered (b : Byte) (hv : s.valid = true) (hl : s.kslen.val ≠ 0) :
      Effect s (.xorb b) (s.pop.answer ⟨0, b ^^^ s.ks[16 - s.kslen.val]⟩)
  | xorbEmpty (b : Byte) (hv : s.valid = true) (hl : s.kslen = 0) :
      Effect s (.xorb b) (((s.exchange Config.blkEnc).cbbInc.pop).answer
        ⟨0, b ^^^ (Config.blkEnc (keyBytes s.key s.keylen) s.cb)[0]⟩)
  | status : Effect s .status (s.answer ⟨0, statusView s⟩)
  | destroy : Effect s .destroy ((s.discard.setErr 0).answer ⟨0, 0⟩)

/-- A well-formed command has one of the effects. -/
theorem exec_effect {i : Instr} (hw : wellFormed i = true) : ∃ t, exec i s = .next t ∧ Effect s i t := by
  cases i with
  | ldn idx b =>
    have h : idx.toNat < 8 := by simpa [wellFormed] using hw
    exact ⟨_, exec_ldn s b h, .ldn _ _ h⟩
  | ldc idx b =>
    have h : idx.toNat < 8 := by simpa [wellFormed] using hw
    exact ⟨_, exec_ldc s b h, .ldc _ _ h⟩
  | ldk idx b =>
    have h : idx.toNat < 32 := by simpa [wellFormed] using hw
    exact ⟨_, exec_ldk s b h, .ldk _ _ h⟩
  | setnl b => exact ⟨_, exec_setnl s b, .setnl b⟩
  | setkl b => exact ⟨_, exec_setkl s b, .setkl b⟩
  | construct nf =>
    have h : nf.toNat < 2 := by simpa [wellFormed] using hw
    by_cases he : NonceError nf s ∨ KeyError s
    · obtain ⟨e, h1, h2, h3, h4, h5⟩ := exec_construct_error s h he
      exact ⟨_, h1, .constructError nf e h h2 h3 h4 h5⟩
    · push Not at he
      exact ⟨_, exec_construct_ok s h he.1 he.2, .constructOk nf h he.1 he.2⟩
  | curblk idx =>
    have h : idx.toNat < 16 := by simpa [wellFormed] using hw
    cases hv : s.valid
    · exact ⟨_, exec_curblk_not_ready s h hv, .noCurblk _ h hv⟩
    · exact ⟨_, exec_curblk_ready s h hv, .curblk _ h hv⟩
  | inc =>
    cases hv : s.valid
    · exact ⟨_, exec_inc_not_ready s hv, .noInc hv⟩
    · exact ⟨_, exec_inc_ready s hv, .inc hv⟩
  | xorb b =>
    cases hv : s.valid
    · exact ⟨_, exec_xorb_not_ready s b hv, .noXorb b hv⟩
    · by_cases hl : s.kslen = 0
      · exact ⟨_, exec_xorb_empty s b hv hl, .xorbEmpty b hv hl⟩
      · have hl' : s.kslen.val ≠ 0 := fun h => hl (Fin.ext h)
        exact ⟨_, exec_xorb_buffered s b hv hl', .xorbBuffered b hv hl'⟩
  | status => exact ⟨_, exec_status s, .status⟩
  | destroy => exact ⟨_, exec_destroy s, .destroy⟩

variable {s}

/-- What a well-formed command did, from its answer. -/
theorem effect_of_exec {i : Instr} {t : State} (hw : wellFormed i = true) (h : exec i s = .next t) :
    Effect s i t := by
  obtain ⟨t', h', he⟩ := exec_effect s hw
  rw [h] at h'
  cases h'
  exact he

/-- No effect touches the command port. -/
theorem Effect.commands_eq {i : Instr} {t : State} (h : Effect s i t) : t.commands = s.commands := by
  cases h <;> simp

end Sys2Proof.Machine
end

