-- ==== Sys2Proof/Laws/PerInstr.lean ====
section
/-! SUPPORT. Per instruction: the fields of a command's word are the row of R84 that the command belongs to. -/

namespace Sys2Proof.Laws.WordFields

/-- The `zero` field of the word is `0x00`, its opcode names a row of R84, and that row makes the command out of the
word's `idx` and `imm8` fields. -/
def Statement (i : Instr) : Prop :=
  zeroOf (encode i) = 0 ∧
    ∃ r ∈ commandRows, r.opcode = opcodeOf (encode i) ∧ r.make (idxOf (encode i)) (immOf (encode i)) = i

theorem ldn (idx imm8 : Byte) : Statement (.ldn idx imm8) := by
  simp [Statement, encode, commandRows]

theorem ldc (idx imm8 : Byte) : Statement (.ldc idx imm8) := by
  simp [Statement, encode, commandRows]

theorem ldk (idx imm8 : Byte) : Statement (.ldk idx imm8) := by
  simp [Statement, encode, commandRows]

theorem setnl (imm8 : Byte) : Statement (.setnl imm8) := by
  simp [Statement, encode, commandRows]

theorem setkl (imm8 : Byte) : Statement (.setkl imm8) := by
  simp [Statement, encode, commandRows]

theorem construct (nf : Byte) : Statement (.construct nf) := by
  simp [Statement, encode, commandRows]

theorem curblk (idx : Byte) : Statement (.curblk idx) := by
  simp [Statement, encode, commandRows]

theorem inc : Statement .inc := by
  simp [Statement, encode, commandRows]

theorem xorb (imm8 : Byte) : Statement (.xorb imm8) := by
  simp [Statement, encode, commandRows]

theorem status : Statement .status := by
  simp [Statement, encode, commandRows]

theorem destroy : Statement .destroy := by
  simp [Statement, encode, commandRows]

end Sys2Proof.Laws.WordFields
end

