-- ==== Sys2Proof/Laws/Run.lean ====
section
/-! SUPPORT. Runs of several steps: for any machine behind the host's interface, and for this one. -/

namespace Sys2Proof.Laws

variable (M : Host.Core)

/-- A run of no step. -/
theorem run_zero (s : M.State) : M.run 0 s = .next s := rfl

/-- A run whose first step answers a next state goes on from there. -/
theorem run_next (k : Nat) {s t : M.State} (h : M.step s = .next t) : M.run (k + 1) s = M.run k t := by
  simp only [Host.Core.run, h]

/-- A run that ends in a next state is cut anywhere. -/
theorem run_add (j k : Nat) {s t : M.State} (h : M.run j s = .next t) : M.run (j + k) s = M.run k t := by
  induction j generalizing s with
  | zero =>
    cases h
    rw [Nat.zero_add]
  | succ j ih =>
    rw [Nat.succ_add]
    cases hs : M.step s with
    | next u =>
      rw [run_next M _ hs] at h ⊢
      exact ih h
    | fault r => simp [Host.Core.run, hs] at h
    | refused r => simp [Host.Core.run, hs] at h

/-- What every step keeps holds after every run. -/
theorem run_keeps (P : M.State → Prop) (hstep : ∀ s t, P s → M.step s = .next t → P t) (k : Nat) {s t : M.State}
    (hs : P s) (h : M.run k s = .next t) : P t := by
  induction k generalizing s with
  | zero => cases h; exact hs
  | succ k ih =>
    cases hu : M.step s with
    | next u =>
      rw [run_next M _ hu] at h
      exact ih (hstep s u hs hu) h
    | fault r => simp [Host.Core.run, hu] at h
    | refused r => simp [Host.Core.run, hu] at h

end Sys2Proof.Laws

namespace Sys2Proof.Machine

/-- `run_next` for this machine, whose step is `step`. -/
theorem core_run_next (k : Nat) {s t : State} (h : step s = .next t) :
    Sys2Proof.core.run (k + 1) s = Sys2Proof.core.run k t :=
  Sys2Proof.Laws.run_next Sys2Proof.core k (s := s) (t := t) h

/-- A run of two steps. -/
theorem core_run_two {s t u : State} (h₁ : step s = .next t) (h₂ : step t = .next u) :
    Sys2Proof.core.run 2 s = .next u :=
  (core_run_next 1 h₁).trans (core_run_next 0 h₂)

end Sys2Proof.Machine
end

