-- ==== Sys2Proof/Tests/Slice0.lean ====
section
/-! SUPPORT. Tests of the model. Expected values are those of spec/95_test_vectors.md (the section is named at each
test) or of the rule named. At the end: for every statement with hypotheses, a witness that meets them. -/

namespace Sys2Proof.Tests

open Sys2Proof.Machine

/-! ### Ill-formed terms are refused (R51, R85) -/

theorem test_wf_ldn : wellFormed (.ldn 7 0xFF) = true ∧ wellFormed (.ldn 8 0) = false := by decide
theorem test_wf_ldc : wellFormed (.ldc 7 0xFF) = true ∧ wellFormed (.ldc 8 0) = false := by decide
theorem test_wf_ldk : wellFormed (.ldk 31 0xFF) = true ∧ wellFormed (.ldk 32 0) = false := by decide
theorem test_wf_construct : wellFormed (.construct 1) = true ∧ wellFormed (.construct 2) = false := by decide
theorem test_wf_curblk : wellFormed (.curblk 15) = true ∧ wellFormed (.curblk 16) = false := by decide

/-! ### Decoding, the words of section 3.8 written bit by bit -/

/-- Does the word decode to that command? -/
def decodesTo (w : Word) (i : Instr) : Bool := (decode w).toOption == some i

theorem test_decode_ldn : decodesTo 0b00000001_00000111_00000000_11111111 (.ldn 7 0xFF) = true := by decide
theorem test_decode_ldc : decodesTo 0b00000010_00000011_00000000_01111111 (.ldc 3 0x7F) = true := by decide
theorem test_decode_ldk : decodesTo 0b00000011_00011111_00000000_10101011 (.ldk 31 0xAB) = true := by decide
theorem test_decode_setnl : decodesTo 0b00000100_00000000_00000000_00001001 (.setnl 9) = true := by decide
theorem test_decode_setkl : decodesTo 0b00000101_00000000_00000000_00100000 (.setkl 32) = true := by decide
theorem test_decode_construct : decodesTo 0b00010000_00000001_00000000_00000000 (.construct 1) = true := by decide
theorem test_decode_curblk : decodesTo 0b00010001_00001111_00000000_00000000 (.curblk 15) = true := by decide
theorem test_decode_inc : decodesTo 0b00010010_00000000_00000000_00000000 .inc = true := by decide
theorem test_decode_xorb : decodesTo 0b00100000_00000000_00000000_11111111 (.xorb 0xFF) = true := by decide
theorem test_decode_status : decodesTo 0b00110000_00000000_00000000_00000000 .status = true := by decide
theorem test_decode_destroy : decodesTo 0b00110001_00000000_00000000_00000000 .destroy = true := by decide

/-- The words of the second table of section 3.8. -/
def illegalWords : List Word :=
  [0x00000000, 0xFFFFFFFF, 0x06000000, 0x0F000000, 0x13000000, 0x21000000, 0x32000000, 0x80000000, 0xFF000000] ++
  [0x01080000, 0x01FF0000, 0x02080011, 0x03200000, 0x04010008, 0x05800010, 0x10020000, 0x10000001, 0x11100000] ++
  [0x110F0001, 0x12000001, 0x12010000, 0x20010048, 0x20000148, 0x2000FF48, 0x30000001, 0x30010000, 0x31000100]

theorem test_decode_illegal : illegalWords.all (fun w => (decode w).toOption == none) = true := by decide

/-- Each reason of R88 is the reason of some word of section 3.8. -/
theorem test_decode_reasons :
    [(0x06000000 : Word), 0x20000148, 0x03200000, 0x110F0001].map (fun w =>
      match decode w with
      | .ok _ => none
      | .error e => some e) =
    [some Illegal.opcode, some .zeroField, some .idxRange, some .immNotZero] := by decide

/-- The host's question: the table's numbering is the word's own, and a bit above `nbits` does not count. -/
theorem test_decodeTableWord :
    decodeTableWord 32 0x031F00AB = some (.ldk 31 0xAB) ∧ decodeTableWord 32 0x106020000 = none ∧
      decodeTableWord 32 0x130000000 = some .status := by decide

/-! ### Byte orders (section 2.1) -/

theorem test_be64 : be64 0x0102030405060708 = #v[0x01, 0x02, 0x03, 0x04, 0x05, 0x06, 0x07, 0x08] := by decide
theorem test_le64 : le64 0xDEADBEEFCAFEF00D = #v[0x0D, 0xF0, 0xFE, 0xCA, 0xEF, 0xBE, 0xAD, 0xDE] := by decide
theorem test_unbe64 : unbe64 #v[0xDE, 0xAD, 0xBE, 0xEF, 0xCA, 0xFE, 0xF0, 0x0D] = 0xDEADBEEFCAFEF00D := by decide
theorem test_unle64 : unle64 #v[0x08, 0x07, 0x06, 0x05, 0x04, 0x03, 0x02, 0x01] = 0x0102030405060708 := by decide

/-! ### Small states -/

/-- A live cipher: 16 zero key bytes, nonce bytes and counter as given, nothing buffered. -/
def live (nb : Vector Byte 8) (c : Counter) : State :=
  { State.reset with
    klen := 16, keylen := 16, valid := true, ctr := c, cb := joinBlock nb (be64 c) }

/-- Nonce value `0x0102030405060708`, counter `0x1122334455667788` (row 3 of section 2.2). -/
def row3 : State := live (le64 0x0102030405060708) 0x1122334455667788

/-- The instance of section 3.4. -/
def sec34 : State := live (le64 0x0102030405060708) 0xFF

/-- The next state, for looking at one field. -/
def after (o : Host.Outcome State Fault Refusal) : Option State :=
  match o with
  | .next t => some t
  | .fault _ => none
  | .refused _ => none

/-- The words of the responses after one command, from a state that was answered nothing yet. -/
def answer (i : Instr) (s : State) : Option (List (BitVec 16)) :=
  (after (exec i s)).map fun t => t.responses.map Response.word

/-! ### Staging (section 3.2) -/

theorem test_ldn : (after (exec (.ldn 7 0x01) State.reset)).map (·.n) = some #v[0, 0, 0, 0, 0, 0, 0, 1] := by decide
theorem test_ldc_keeps_lanes :
    (after (exec (.ldc 7 0xFF) { State.reset with cin := 1 })).map (·.cin) = some 0xFF00000000000001 := by decide
theorem test_ldc_lane0 :
    (after (exec (.ldc 0 0x00) { State.reset with cin := 0xFF00000000000001 })).map (·.cin) =
      some 0xFF00000000000000 := by decide
theorem test_ldk : (after (exec (.ldk 31 0xAB) State.reset)).map (fun t => (t.k[31], t.k[30], t.key[31])) =
    some (0xAB, 0, 0) := by decide
theorem test_setnl : (after (exec (.setnl 255) State.reset)).map (fun t => (t.nlen, t.klen)) = some (0xFF, 0) := by
  decide
theorem test_setkl : (after (exec (.setkl 16) State.reset)).map (fun t => (t.klen, t.keylen)) = some (0x10, 0) := by
  decide
theorem test_staging_index : answer (.ldn 8 0) State.reset = some [0x0800] := by decide

/-! ### `CONSTRUCT` (sections 2.2 and 3.3) -/

/-- `KEYLENS = {16, 24, 32}`, the set of section 3.3. -/
def keylens (len : Byte) : Bool := len == 16 || len == 24 || len == 32

/-- Response word, `VALID` and `ERR` of a row of section 3.3. -/
def constructRow (form : NonceForm) (nlen klen : Byte) : List (BitVec 16) × Bool × BitVec 2 :=
  let t := ({ State.reset with nlen := nlen, klen := klen }).constructWith keylens form
  (t.responses.map Response.word, t.valid, t.err)

theorem test_construct_rows :
    constructRow .value 3 16 = ([0x0000], true, 0) ∧ constructRow .value 0 24 = ([0x0000], true, 0) ∧
    constructRow .buffer 8 16 = ([0x0000], true, 0) ∧ constructRow .buffer 255 32 = ([0x0000], true, 0) ∧
    constructRow .buffer 7 16 = ([0x0100], false, 1) ∧ constructRow .value 0 0 = ([0x0200], false, 2) ∧
    constructRow .value 0 17 = ([0x0200], false, 2) ∧ constructRow .value 0 33 = ([0x0200], false, 2) ∧
    constructRow .buffer 7 0 = ([0x0300], false, 3) ∧ constructRow .buffer 8 0 = ([0x0200], false, 2) := by decide

theorem test_construct_block :
    (after (exec (.construct 0) { State.reset with klen := 16, n := le64 0x0102030405060708, cin := 0xFFFFFFFF })).map
      (fun t => (t.cb, t.ctr)) =
    some (#v[0x08, 7, 6, 5, 4, 3, 2, 1, 0, 0, 0, 0, 0xFF, 0xFF, 0xFF, 0xFF], 0xFFFFFFFF) := by decide

/-! ### `CURBLK` and `INC` (sections 2.3 and 2.4) -/

theorem test_curblk : answer (.curblk 0) row3 = some [0x0008] ∧ answer (.curblk 9) row3 = some [0x0022] ∧
    answer (.curblk 15) row3 = some [0x0088] ∧ answer (.curblk 3) State.reset = some [0x0400] := by decide

/-- Block and counter after `INC`, with the nonce half all `0xA1`. -/
def incRow (c : Counter) : Option (Block × Counter) :=
  (after (exec .inc (live (Vector.replicate 8 0xA1) c))).map fun t => (t.cb, t.ctr)

theorem test_inc_carry : incRow 0xFFFFFFFF =
    some (#v[0xA1, 0xA1, 0xA1, 0xA1, 0xA1, 0xA1, 0xA1, 0xA1, 0, 0, 0, 1, 0, 0, 0, 0], 0x100000000) := by decide
theorem test_inc_wrap : incRow 0xFFFFFFFFFFFFFFFF =
    some (#v[0xA1, 0xA1, 0xA1, 0xA1, 0xA1, 0xA1, 0xA1, 0xA1, 0, 0, 0, 0, 0, 0, 0, 0], 0) := by decide

/-! ### `XORB` (sections 3.1, 3.4, 3.5), with the test doubles of section 3.1 -/

/-- `E_ID`. -/
def encId (_ : List Byte) (b : Block) : Block := b

/-- `E_T` for a 16-byte key, where the folded key is the key. -/
def encT (key : List Byte) (b : Block) : Block := Vector.ofFn fun i => b[15 - i.val] ^^^ key.getD i.val 0 ^^^ 0xA5

/-- The last response word, `KSLEN` and `CTR`. -/
def seen (s : State) : List (BitVec 16) × Nat × Counter := (s.responses.map Response.word, s.kslen.val, s.ctr)

theorem test_xorb_refill : seen (sec34.xorbWith encId 0x48) = ([0x0040], 15, 0x100) := by decide
theorem test_xorb_order :
    seen ((sec34.xorbWith encId 0).xorbWith encId 0) = ([0x0008, 0x0007], 14, 0x100) ∧
    seen (State.xorbWith encT 0
      { live (Vector.replicate 8 0) 1 with key := keyCopy (Vector.ofFn fun i => BitVec.ofNat 8 i.val) 16 }) =
        ([0x00A4], 15, 2) ∧
    (State.refill encT
      { live (Vector.replicate 8 0) 1 with key := keyCopy (Vector.ofFn fun i => BitVec.ofNat 8 i.val) 16 }).ks =
        #v[0xA4, 0xA4, 0xA7, 0xA6, 0xA1, 0xA0, 0xA3, 0xA2, 0xAD, 0xAC, 0xAF, 0xAE, 0xA9, 0xA8, 0xAB, 0xAA] := by
  decide

/-! ### `STATUS` and `DESTROY` (section 3.6) -/

theorem test_status : answer .status State.reset = some [0x0000] ∧
    answer .status { row3 with kslen := 15 } = some [0x0079] ∧
    answer .status { row3 with kslen := 11 } = some [0x0059] ∧
    answer .status { State.reset with err := 2 } = some [0x0004] ∧
    answer .status { State.reset with err := 3 } = some [0x0006] := by decide
theorem test_destroy : (after (exec .destroy { row3 with kslen := 7 })).map
    (fun t => (t.valid, t.kslen.val, t.cb, t.ctr, t.klen)) = some (false, 0, Vector.replicate 16 0, 0, 16) := by
  decide

/-! ### The step and the host's side -/

theorem test_step_first_commands : -- section 3.9
    [0x30000000, 0x20000000, 0x11000000, 0x12000000, 0x10000000, 0x10010000, 0x31000000, 0x20010041].map
      (fun w => (after (step (State.reset.withFetchWord 32 w))).map fun t => t.responses.map Response.word) =
    [some [0x0000], some [0x0400], some [0x0400], some [0x0400], some [0x0200], some [0x0300], some [0x0000],
      some [0x0800]] := by decide
theorem test_idle : (after (step State.reset)) = some State.reset := by decide
theorem test_loadctr : -- section 3.2: lane 0 first
    (loadCtr 0x1122334455667788).take 2 = [.ldc 0 0x88, .ldc 1 0x77] ∧ (loadCtr 0).length = 8 := by decide
theorem test_loadnoncebuf : -- R92: of nine bytes the first eight are sent, and the length is 9
    (loadNonceBuf [0xA1, 0xA2, 0xA3, 0xA4, 0xA5, 0xA6, 0xA7, 0xA8, 0xA9]).drop 7 = [.ldn 7 0xA8, .setnl 9] := by
  decide
theorem test_hexToBytes : -- R185: the first digit is the high four bits
    (hexToBytes ['1', 'f', 'A', '0']).toOption = some [0x1F, 0xA0] ∧ (hexToBytes ['1', 'f', 'A']).toOption = none ∧
      (hexToBytes ['g', '0']).toOption = none := by decide
theorem test_assembly : assembly (.ldn 7 0xFF) = "LDN 7, 255" ∧ assembly .inc = "INC" := by decide

/-! ### Witnesses: states and operands that meet the hypotheses of each statement -/

/-- A live cipher with three bytes left, of a block the cipher gave. -/
def midway : State :=
  { live (Vector.replicate 8 0) 1 with kslen := 3, ks := Config.blkEnc (List.replicate 16 0) (Vector.replicate 16 0) }

theorem test_witness_DecodeOfEncodeIsIdentity :
    wellFormed (.ldk 31 0xFF) = true ∧ wellFormed (.curblk 15) = true ∧ wellFormed (.construct 1) = true := by decide
theorem test_witness_EncodeOfDecodeIsIdentity : decode 0x031F00AB = .ok (.ldk 31 0xAB) := rfl
theorem test_witness_StepRunsDecodedCommand :
    ({ row3 with commands := [0x12000000, 0x30000000] } : State).commands = 0x12000000 :: [0x30000000] ∧
      decode 0x12000000 = .ok .inc := ⟨rfl, rfl⟩
theorem test_witness_IdleStepChangesNothing : row3.commands = [] ∧ State.reset.commands = [] := ⟨rfl, rfl⟩
theorem test_witness_IllegalWordChangesNothing :
    ({ row3 with commands := [0x11100000] } : State).commands = 0x11100000 :: [] ∧
      ¬ ∃ p ∈ patterns, p.holds 0x11100000 := by decide
/-- A word that is carried out, one of each kind of error, and the response each gets. -/
theorem test_witness_OneResponsePerCommand :
    [(row3, 0x12000000), (State.reset, 0x12000000), (State.reset, 0x10000000), (row3, 0x20010041)].map
      (fun (sw : State × Word) => (after (step { sw.1 with commands := [sw.2] })).map fun t => t.responses) =
    [some [⟨0x00, 0x00⟩], some [⟨0x04, 0x00⟩], some [⟨0x02, 0x00⟩], some [⟨0x08, 0x00⟩]] := by decide
theorem test_witness_EachErrorBitHasItsCause :
    (∃ t, step { State.reset with commands := [0x10010000] } = .next t ∧ t.responses = [] ++ [⟨0x03, 0⟩]) ∧
    (∃ t, step { State.reset with commands := [0x12000000] } = .next t ∧ t.responses = [] ++ [⟨0x04, 0⟩]) ∧
    (∃ t, step { row3 with commands := [0x01080000] } = .next t ∧ t.responses = [] ++ [⟨0x08, 0⟩]) ∧
    ∃ t, step { row3 with commands := [0x12000000] } = .next t ∧ t.responses = [] ++ [⟨0x00, 0⟩] :=
  ⟨⟨_, rfl, by decide⟩, ⟨_, rfl, by decide⟩, ⟨_, rfl, by decide⟩, ⟨_, rfl, by decide⟩⟩
theorem test_witness_ResetLeavesEveryRegisterZero :
    (∃ r, r = State.reset) ∧ ∃ r, r = State.resetEvent { midway with commands := [0x12000000] } :=
  ⟨⟨_, rfl⟩, ⟨_, rfl⟩⟩
theorem test_witness_LdnWritesOneNonceByte : (0 : Byte).toNat < 8 ∧ (7 : Byte).toNat < 8 := by decide
theorem test_witness_LdcWritesOneCounterLane :
    (0 : Byte).toNat < 8 ∧ (7 : Byte).toNat < 8 ∧ (0 < 64) ∧ (63 < 64) := by decide
theorem test_witness_LdkWritesOneKeyByte : (0 : Byte).toNat < 32 ∧ (31 : Byte).toNat < 32 := by decide
theorem test_witness_IndexOutOfRangeIsIllegal :
    wellFormed (.ldn 8 0) = false ∧ wellFormed (.ldc 8 0) = false ∧ wellFormed (.ldk 32 0) = false ∧
      wellFormed (.construct 2) = false ∧ wellFormed (.curblk 16) = false := by decide
theorem test_witness_StagingChangedOnlyByItsCommand :
    (∃ t, exec (.ldn 7 1) State.reset = .next t ∧ t.n ≠ State.reset.n) ∧
    (∃ t, exec (.ldc 7 1) State.reset = .next t ∧ t.cin ≠ State.reset.cin) ∧
    (∃ t, exec (.ldk 31 1) State.reset = .next t ∧ t.k ≠ State.reset.k) ∧
    (∃ t, exec (.setnl 1) State.reset = .next t ∧ t.nlen ≠ State.reset.nlen) ∧
    ∃ t, exec (.setkl 1) State.reset = .next t ∧ t.klen ≠ State.reset.klen :=
  ⟨⟨_, rfl, by decide⟩, ⟨_, rfl, by decide⟩, ⟨_, rfl, by decide⟩, ⟨_, rfl, by decide⟩, ⟨_, rfl, by decide⟩⟩
theorem test_witness_StagingReadOnlyByConstruct :
    ∃ s s' t t', (∀ nf, Instr.inc ≠ .construct nf) ∧ SameCipher s s' ∧ SameFlags s s' ∧ s'.commands = s.commands ∧
      s'.responses = s.responses ∧ s'.exchanges = s.exchanges ∧ s'.klen ≠ s.klen ∧ exec .inc s = .next t ∧
      exec .inc s' = .next t' :=
  ⟨row3, { row3 with klen := 5, cin := 9 }, _, _, nofun, ⟨rfl, rfl, rfl, rfl, rfl, rfl⟩, ⟨rfl, rfl⟩,
    rfl, rfl, rfl, by decide, rfl, rfl⟩
theorem test_witness_StagedNumbersReachTheBlock :
    ∃ s : State, keyLenSupported s.klen = true ∧
      s.commands = words (loadNonce 0x0102030405060708 ++ loadCtr 0xFF ++ [.construct 0]) :=
  ⟨{ State.reset with klen := 16, commands := _ }, by decide, rfl⟩
theorem test_witness_StagedKeyReachesThePort :
    ∃ (s : State) (bs : List Byte), bs.length ≤ 32 ∧ keyLenSupported (BitVec.ofNat 8 bs.length) = true ∧
      s.commands = words (loadKey bs ++ [.construct 0]) :=
  ⟨{ State.reset with commands := _ }, List.replicate 16 0xAB, by decide, by decide, rfl⟩
/-- Both forms of `CONSTRUCT` at the states the witnesses below use: the checks pass, or fail, at their limits
(`NLEN` 8 and 7, `KLEN` 16, 0 and 33). -/
theorem test_witness_checks :
    (¬ NonceError 0 row3 ∧ ¬ NonceError 1 { row3 with nlen := 8 } ∧ NonceError 1 { row3 with nlen := 7 }) ∧
      ¬ KeyError row3 ∧ KeyError { row3 with klen := 0 } ∧ KeyError { row3 with klen := 33 } := by
  unfold NonceError KeyError
  decide
theorem test_witness_CbbBuildLaysOutTheBlock :
    (0 : Byte).toNat < 2 ∧ ¬ NonceError 0 row3 ∧ ¬ KeyError row3 ∧ ∃ t, exec (.construct 0) row3 = .next t :=
  ⟨by decide, test_witness_checks.1.1, test_witness_checks.2.1, _, rfl⟩
theorem test_witness_CbbIncStepsTheCounter :
    (live (le64 5) 0xFFFFFFFFFFFFFFFF).ctr = 0xFFFFFFFFFFFFFFFF ∧ row3.valid = true ∧ row3.kslen = 0 ∧
      ∃ t, exec (.xorb 0x41) row3 = .next t := ⟨rfl, rfl, rfl, _, rfl⟩
theorem test_witness_IncrementRipplesThroughTheBytes :
    CounterEncoded (live (le64 5) 0x00FFFFFFFFFFFFFF) ∧ CounterEncoded (live (le64 5) 0xFFFFFFFFFFFFFFFF) := by
  unfold CounterEncoded
  decide
theorem test_witness_CurblkReturnsOneBlockByte :
    (0 : Byte).toNat < 16 ∧ (15 : Byte).toNat < 16 ∧ row3.valid = true := by decide
theorem test_witness_IncAddsOneToTheCounter : row3.valid = true ∧ midway.valid = true := ⟨rfl, rfl⟩
theorem test_witness_RepeatedIncAddsN :
    ∃ s : State, s.valid = true ∧ CounterEncoded s ∧ s.commands = words (List.replicate 2 .inc) :=
  ⟨{ live (le64 5) 0xFFFFFFFFFFFFFFFF with commands := _ }, rfl, by unfold CounterEncoded; decide, rfl⟩
theorem test_witness_NoCipherAnswersStateError :
    State.reset.valid = false ∧ (∃ idx, idx.toNat < 16 ∧ Instr.curblk 15 = .curblk idx) :=
  ⟨rfl, 15, by decide, rfl⟩
theorem test_witness_KeyLensContains16Within1To32 : ∃ len, keyLenSupported len = true := ⟨16, rfl⟩
theorem test_witness_ConstructBuildsFromStaging :
    ((0 : Byte).toNat < 2 ∧ ¬ NonceError 0 row3 ∧ ¬ KeyError row3) ∧
      (1 : Byte).toNat < 2 ∧ ¬ NonceError 1 { row3 with nlen := 8 } ∧ ¬ KeyError { row3 with nlen := 8 } :=
  ⟨⟨by decide, test_witness_checks.1.1, test_witness_checks.2.1⟩, by decide, test_witness_checks.1.2.1,
    test_witness_checks.2.1⟩
theorem test_witness_FailedConstructDestroysTheCipher :
    ((1 : Byte).toNat < 2 ∧ (NonceError 1 { row3 with nlen := 7 } ∨ KeyError { row3 with nlen := 7 })) ∧
      (0 : Byte).toNat < 2 ∧ (NonceError 0 { row3 with klen := 33 } ∨ KeyError { row3 with klen := 33 }) :=
  ⟨⟨by decide, .inl test_witness_checks.1.2.2⟩, by decide, .inr test_witness_checks.2.2.2⟩
theorem test_witness_ConstructAndDestroyRepeatIdempotently :
    (∃ t t', (1 : Byte).toNat < 2 ∧ exec (.construct 1) row3 = .next t ∧ exec (.construct 1) t = .next t') ∧
      ∃ t t', exec .destroy row3 = .next t ∧ exec .destroy t = .next t' :=
  ⟨⟨_, _, by decide, rfl, rfl⟩, _, _, rfl, rfl⟩
theorem test_witness_XorbPopsTheBuffer :
    (midway.valid = true ∧ midway.kslen.val ≠ 0) ∧ ({ midway with kslen := 1 } : State).kslen.val ≠ 0 ∧
      ({ midway with kslen := 16 } : State).kslen.val ≠ 0 := by decide
theorem test_witness_XorbRefillsTheEmptyBuffer : row3.valid = true ∧ row3.kslen = 0 := ⟨rfl, rfl⟩
theorem test_witness_ExchangeOnlyWhenXorbFindsEmptyBuffer :
    (∃ s t, s.commands = 0x20000041 :: [] ∧ step s = .next t ∧ isXorb 0x20000041 = true ∧ s.valid = true ∧
      s.kslen = 0) ∧
    ∃ s t, s.commands = 0x12000000 :: [] ∧ step s = .next t ∧ isXorb 0x12000000 = false :=
  ⟨⟨{ row3 with commands := [0x20000041] }, _, rfl, rfl, rfl, rfl, rfl⟩,
    { row3 with commands := [0x12000000] }, _, rfl, rfl, rfl⟩
theorem test_witness_InputByteReachesOnlyTheOutput :
    ∃ t t', row3.valid = true ∧ exec (.xorb 0x00) row3 = .next t ∧ exec (.xorb 0xFF) row3 = .next t' :=
  ⟨_, _, rfl, rfl, rfl⟩
theorem test_witness_ConstructStartsTheStream :
    ∃ t, (0 : Byte).toNat < 2 ∧ ¬ NonceError 0 row3 ∧ ¬ KeyError row3 ∧ exec (.construct 0) row3 = .next t :=
  ⟨_, by decide, test_witness_checks.1.1, test_witness_checks.2.1, rfl⟩

/-- `midway` with command words waiting. -/
def midwayWith (ws : List Word) : State := { midway with commands := ws }

/-- Position 0, where the buffer is empty. -/
theorem test_witness_AtPosition_start :
    AtPosition (List.replicate 16 0) (Vector.replicate 8 0) 5 0 (live (Vector.replicate 8 0) 5) :=
  ⟨rfl, by decide, by decide, rfl, rfl, fun h => absurd rfl h⟩

/-- Position 13, where three bytes of the first block are left. -/
theorem test_witness_AtPosition (ws : List Word) :
    AtPosition (List.replicate 16 0) (Vector.replicate 8 0) 0 13 (midwayWith ws) := by
  have hk : keyBytes State.reset.key 16 = List.replicate 16 0 := by decide
  have h : joinBlock (Vector.replicate 8 0) (be64 (0 + BitVec.ofNat 64 (13 / 16))) = Vector.replicate 16 0 := by decide
  refine ⟨rfl, hk, by simp only [midwayWith, midway, live]; decide, rfl, rfl, fun _ => ?_⟩
  rw [h]
  rfl
theorem test_witness_StepKeepsTheStreamPosition :
    ∃ s, AtPosition (List.replicate 16 0) (Vector.replicate 8 0) 0 13 s ∧ s.commands = 0x20000041 :: [] ∧
      keepsStream 0x20000041 = true ∧ keepsStream 0x11100000 = true ∧ isXorb 0x11100000 = false :=
  ⟨midwayWith [0x20000041], test_witness_AtPosition _, rfl, rfl, rfl, rfl⟩
theorem test_witness_KeystreamHasClosedForm :
    ∃ s, AtPosition (List.replicate 16 0) (Vector.replicate 8 0) 0 13 s ∧
      (∀ w ∈ s.commands, keepsStream w = true) ∧ s.commands = [0x20000041, 0x30000000, 0x20000042] :=
  ⟨midwayWith [0x20000041, 0x30000000, 0x20000042], test_witness_AtPosition _,
    List.forall_mem_cons.2 ⟨rfl, List.forall_mem_cons.2 ⟨rfl, List.forall_mem_cons.2 ⟨rfl, nofun⟩⟩⟩, rfl⟩
theorem test_witness_ChunkingDoesNotChangeTheOutput :
    ∃ s s', AtPosition (List.replicate 16 0) (Vector.replicate 8 0) 0 13 s ∧
      AtPosition (List.replicate 16 0) (Vector.replicate 8 0) 0 13 s' ∧
      (∀ w ∈ ([0x30000000, 0x04000003] : List Word), keepsStream w = true ∧ isXorb w = false) ∧
      s.commands = words (transform ([0x48, 0x45] ++ [0x4C])) ∧
      s'.commands = words (transform [0x48, 0x45]) ++ [0x30000000, 0x04000003] ++ words (transform [0x4C]) :=
  ⟨midwayWith (words (transform ([0x48, 0x45] ++ [0x4C]))),
    midwayWith (words (transform [0x48, 0x45]) ++ [0x30000000, 0x04000003] ++ words (transform [0x4C])),
    test_witness_AtPosition _, test_witness_AtPosition _,
    List.forall_mem_cons.2 ⟨⟨rfl, rfl⟩, List.forall_mem_cons.2 ⟨⟨rfl, rfl⟩, nofun⟩⟩, rfl, rfl⟩
/-- Every premise, the one on the second queue included: that queue holds the byte the first run gave. -/
theorem test_witness_TransformTwiceGivesTheInputBack :
    ∃ (s s' t : State) (output : List Byte),
      (0 : Byte).toNat < 2 ∧ ¬ NonceError 0 s ∧ ¬ KeyError s ∧ SameStaging s s' ∧
      s.commands = words (.construct 0 :: transform [0x48]) ∧ Sys2Proof.core.run 2 s = .next t ∧
      t.responses = s.responses ++ ⟨0x00, 0x00⟩ :: okResponses output ∧ output.length = 1 ∧
      s'.commands = words (.construct 0 :: transform output) := by
  let s : State := { row3 with commands := words (.construct 0 :: transform [0x48]) }
  let r : State := { s with commands := words (transform [0x48]) }
  let u : State := (((r.discard.setErr 0).cbbBuild r.n r.cin).takeKey.setValid).answer ⟨0, 0⟩
  have h1 : step s = .next u := (step_command rfl (rfl : decode (encode (.construct 0)) = .ok (.construct 0))).trans
    (exec_construct_ok r (by decide) test_witness_checks.1.1 test_witness_checks.2.1)
  have h2 := (step_command (s := u) rfl (rfl : decode (encode (.xorb 0x48)) = .ok (.xorb 0x48))).trans
    (exec_xorb_empty { u with commands := [] } 0x48 rfl rfl)
  exact ⟨s, { row3 with valid := false, commands := words (.construct 0 :: transform
      [0x48 ^^^ (Config.blkEnc (keyBytes u.key u.keylen) u.cb)[0]]) }, _, [_], by decide, test_witness_checks.1.1,
    test_witness_checks.2.1, ⟨rfl, rfl, rfl, rfl, rfl⟩, rfl, core_run_two h1 h2, rfl, rfl, rfl⟩

/-- The invariants hold at a live cipher with an empty buffer and with a part of one. -/
theorem test_witness_Inv : row3.Inv ∧ midway.Inv ∧ State.Inv { State.reset with err := 3 } := by
  unfold State.Inv CipherZero CounterEncoded KeyWellFormed
  refine ⟨by decide, ⟨nofun, fun _ => rfl, by decide, by decide, by decide⟩, by decide⟩
theorem test_witness_StatusDataIsBounded :
    ∃ s t d, State.Inv s ∧ exec .status s = .next t ∧ Answered s t 0x00 d ∧ d = 0x79 :=
  ⟨{ row3 with kslen := 15 }, _, _, by unfold State.Inv CipherZero CounterEncoded KeyWellFormed; decide, rfl,
    ⟨rfl, rfl⟩, by decide⟩
theorem test_witness_ValidFollowsConstructAndDestroy :
    (∃ t, exec (.construct 0) row3 = .next t) ∧ State.reset.valid = false ∧
      (∃ s t, s.commands = 0x20010041 :: [] ∧ (∀ i, decode 0x20010041 ≠ .ok i) ∧ step s = .next t) :=
  ⟨⟨_, rfl⟩, rfl, { row3 with commands := [0x20010041] }, _, rfl, nofun, rfl⟩
theorem test_witness_ErrHoldsTheLastConstructErrors :
    (∃ t, exec (.construct 1) State.reset = .next t ∧ t.err = 3) ∧
      (∃ s t, s.commands = 0x20010041 :: [] ∧ (∀ i, decode 0x20010041 ≠ .ok i) ∧ step s = .next t) :=
  ⟨⟨_, rfl, by decide⟩, { row3 with commands := [0x20010041] }, _, rfl, nofun, rfl⟩
theorem test_witness_StepKeepsTheInvariant :
    ∃ s t, State.Inv s ∧ step s = .next t ∧ s.commands = [0x12000000] :=
  ⟨{ row3 with commands := [0x12000000] }, _, test_witness_Inv.1, rfl, rfl⟩
theorem test_witness_EveryCommandBoundaryMeetsTheInvariant :
    (∃ t, Sys2Proof.core.run 2 (State.reset.issue [0x05000010, 0x10000000]) = .next t) ∧
      ∃ s t, step s = .next t ∧ ¬ SameNonceHalf s t ∧ s.commands = [0x31000000] :=
  ⟨⟨_, rfl⟩, { row3 with commands := [0x31000000] }, _, rfl, fun h => absurd (h 0) (by decide), rfl⟩
theorem test_witness_CounterHalfAlwaysEncodesTheCounter :
    (∃ s t, (s.valid = true → CounterEncoded s) ∧ step s = .next t ∧ t.valid = true) ∧
      ∃ t, exec .inc row3 = .next t ∧ (t.ctr ≠ row3.ctr ∧ row3.valid = true) :=
  ⟨⟨{ row3 with commands := [0x12000000] }, _, test_witness_Inv.1.2.2.1, rfl, by decide⟩, _, rfl, by decide, rfl⟩
theorem test_witness_KeyAndKeystreamCannotBeReadBack :
    ∃ s s' t t', (∀ b, Instr.curblk 3 ≠ .xorb b) ∧ s'.nlen = s.nlen ∧ s'.klen = s.klen ∧ s'.cb = s.cb ∧
      s'.kslen = s.kslen ∧ SameFlags s s' ∧ s'.responses = s.responses ∧ exec (.curblk 3) s = .next t ∧
      exec (.curblk 3) s' = .next t' ∧ s'.key ≠ s.key ∧ s'.k ≠ s.k :=
  ⟨row3, { row3 with key := Vector.replicate 32 1, k := Vector.replicate 32 2 }, _, _, nofun, rfl, rfl,
    rfl, rfl, ⟨rfl, rfl⟩, rfl, rfl, rfl, by decide, by decide⟩

end Sys2Proof.Tests
end

section
/-! PROOFS. The scope statements: the integer encodings (spec/00_scope.md R8) and `KEYLENS` (R5).

The encodings are settled for `le64`: byte lane `i` of `unle64 b` is `b[i]`, so `le64` undoes `unle64`; and `le64` is
injective, so `unle64` undoes `le64`. The facts on `be64` follow, since it is `le64` with the bytes reversed. -/

namespace Sys2Proof.Machine

/-! ### Little-endian -/

/-- The `i` low bytes of the concatenation are dropped, and then the lowest one is `b[i]`. -/
theorem extractLsb'_unle64 (b : Vector Byte 8) (i : Fin 8) : (unle64 b).extractLsb' (8 * i.val) 8 = b[i.val] := by
  unfold unle64
  fin_cases i
  pick_goal 8 -- the top byte: dropping the other seven leaves no concatenation
  · iterate 7 rw [BitVec.extractLsb'_append_eq_of_le (by decide)]
    exact BitVec.extractLsb'_eq_self
  all_goals
    repeat rw [BitVec.extractLsb'_append_eq_of_le (by decide)]
    exact BitVec.extractLsb'_append_eq_right

@[simp] theorem le64_unle64 (b : Vector Byte 8) : le64 (unle64 b) = b := by
  ext i hi : 1
  rw [le64_get _ ⟨i, hi⟩, extractLsb'_unle64 b ⟨i, hi⟩]

/-- Bit `m` of a number is bit `m mod 8` of its byte `m / 8`. -/
theorem getLsbD_eq_le64 (v : Counter) (m : Fin 64) :
    v.getLsbD m.val = ((le64 v)[m.val / 8]).getLsbD (m.val % 8) := by
  rw [le64_get v ⟨m.val / 8, by omega⟩, BitVec.getLsbD_extractLsb', Nat.div_add_mod]
  simp [Nat.mod_lt]

theorem le64_injective : Function.Injective le64 := by
  intro v w h
  refine BitVec.eq_of_getLsbD_eq fun m hm => ?_
  rw [getLsbD_eq_le64 v ⟨m, hm⟩, getLsbD_eq_le64 w ⟨m, hm⟩, h]

@[simp] theorem unle64_le64 (v : Counter) : unle64 (le64 v) = v := le64_injective (le64_unle64 (le64 v))

/-! ### Big-endian: the same bytes in the other order -/

theorem be64_eq_reverse (v : Counter) : be64 v = (le64 v).reverse := by
  ext i hi : 1
  rw [be64_get v ⟨i, hi⟩, Vector.getElem_reverse, le64_get v ⟨8 - 1 - i, by omega⟩,
    show 56 - 8 * i = 8 * (8 - 1 - i) by omega]

theorem unbe64_eq_unle64_reverse (b : Vector Byte 8) : unbe64 b = unle64 b.reverse := by
  simp only [unbe64, unle64, Vector.getElem_reverse]

@[simp] theorem unbe64_be64 (v : Counter) : unbe64 (be64 v) = v := by
  rw [unbe64_eq_unle64_reverse, be64_eq_reverse, Vector.reverse_reverse, unle64_le64]

@[simp] theorem be64_unbe64 (b : Vector Byte 8) : be64 (unbe64 b) = b := by
  rw [unbe64_eq_unle64_reverse, be64_eq_reverse, le64_unle64, Vector.reverse_reverse]

/-- Settles O25: each encoding has its inverse on both sides. -/
theorem integerEncodingsAreInverse : Obligations.IntegerEncodingsAreInverse :=
  ⟨fun v => ⟨unbe64_be64 v, unle64_le64 v⟩, fun b => ⟨be64_unbe64 b, le64_unle64 b⟩⟩

/-! ### `KEYLENS` -/

/-- The member 16 meets the bounds by its value, every other member by the guard of the open predicate. -/
theorem keyLenSupported_bounds {len : Byte} (h : keyLenSupported len = true) : 1 ≤ len.toNat ∧ len.toNat ≤ 32 := by
  obtain rfl | ⟨hlow, hhigh, -⟩ := (keyLenSupported_iff len).1 h
  · decide
  · exact ⟨hlow, hhigh⟩

@[simp] theorem keyLenSupported_sixteen : keyLenSupported 16#8 = true := (keyLenSupported_iff _).2 (.inl rfl)

/-- The length of an absent key is below the lower bound. -/
@[simp] theorem keyLenSupported_zero : keyLenSupported 0#8 = false :=
  Bool.eq_false_of_not_eq_true fun h => absurd (keyLenSupported_bounds h).1 (by decide)

/-- Settles O30, by the bounds every member of `KEYLENS` meets. -/
theorem keyLensContains16Within1To32 : Obligations.KeyLensContains16Within1To32 :=
  ⟨keyLenSupported_sixteen, keyLenSupported_zero, fun _ => keyLenSupported_bounds⟩

end Sys2Proof.Machine
end

section
/-! PROOFS. The statements about the state (spec/10_state.md): what a step does to the staging registers, the flags and
the counter block, and the invariants of R37.

Each fact is settled first for the effects of a well-formed command (`Effect`), by one case split in which the effects
that treat the registers alike stand together; `exec_cases` and `step_next_cases` carry it to `exec` and `step`. -/

namespace Sys2Proof.Machine

variable {s t : State} {i : Instr}

/-! ### From `exec` and `step` to effects -/

/-- The range test of a row of R84 is the range test of the command the row makes. -/
theorem wellFormed_make {r : CommandRow} (hr : r ∈ commandRows) {idx : Byte} (imm8 : Byte)
    (h : idx.toNat < r.idxCount) : wellFormed (r.make idx imm8) = true := by
  simp only [commandRows, List.mem_cons, List.not_mem_nil, or_false] at hr
  rcases hr with rfl | rfl | rfl | rfl | rfl | rfl | rfl | rfl | rfl | rfl | rfl <;>
    simp only [wellFormed] <;> exact decide_eq_true h

/-- Decoding answers well-formed commands only (R87, R88(c)). -/
theorem wellFormed_of_decode {w : Word} (h : decode w = .ok i) : wellFormed i = true := by
  obtain ⟨-, r, hr, hidx, -, rfl⟩ := (decode_eq_ok_iff w i).1 h
  exact wellFormed_make (find_commandRow hr).1 _ hidx

/-- A term with its index out of range is answered like an illegal word (log entry 8). -/
theorem exec_of_not_wellFormed (s : State) (hw : wellFormed i = false) :
    exec i s = .next (s.answer ⟨0x08, 0⟩) := by
  cases i with
  | ldn idx _ | ldc idx _ | ldk idx _ | curblk idx =>
    have h := of_decide_eq_false hw
    simp [exec, execLdn, execLdc, execLdk, execCurblk, indexInto_of_ge h, eIllegal]
  | construct nf =>
    have h := of_decide_eq_false hw
    simp [exec, execConstruct, nonceForm_of_ge h, eIllegal]
  | setnl | setkl | inc | xorb | status | destroy => cases hw

/-- Everything a term can do: one of the effects, or nothing when its index is out of range. -/
theorem exec_cases (h : exec i s = .next t) :
    Effect s i t ∨ wellFormed i = false ∧ t = s.answer ⟨0x08, 0⟩ := by
  cases hw : wellFormed i with
  | true => exact .inl (effect_of_exec hw h)
  | false =>
    rw [exec_of_not_wellFormed s hw] at h
    cases h
    exact .inr ⟨rfl, rfl⟩

/-- Everything a step can do: nothing, the answer to an illegal word, or one of the effects of the decoded command. -/
theorem step_next_cases (h : step s = .next t) :
    t = s ∨ ∃ w rest, s.commands = w :: rest ∧
      (t = State.answer { s with commands := rest } ⟨0x08, 0⟩ ∨
        ∃ i, decode w = .ok i ∧ Effect { s with commands := rest } i t) := by
  obtain ⟨-, hs⟩ | ⟨w, rest, _, hc, -, hs⟩ | ⟨w, rest, i, hc, hd, hs⟩ := step_cases s <;> rw [hs] at h
  · cases h
    exact .inl rfl
  · cases h
    exact .inr ⟨w, rest, hc, .inl rfl⟩
  · exact .inr ⟨w, rest, hc, .inr ⟨i, hd, effect_of_exec (wellFormed_of_decode hd) h⟩⟩

/-- Settles O6: what decodes is well formed, and the step runs it. -/
theorem stepRunsDecodedCommand : Obligations.StepRunsDecodedCommand :=
  fun _ _ _ _ hc hd => ⟨wellFormed_of_decode hd, step_command hc hd⟩

/-! ### The counter half (R28) -/

theorem counterEncoded_of_cb {nb : Vector Byte 8} (h : s.cb = joinBlock nb (be64 s.ctr)) : CounterEncoded s := by
  intro j
  simp only [h, joinBlock_high, be64_get]

/-- The zero block encodes the zero counter. -/
theorem CipherZero.counterEncoded (h : CipherZero s) : CounterEncoded s := by
  obtain ⟨hcb, hctr, -⟩ := h
  intro j
  simp [hcb, hctr]

/-- `CBB_INC` re-encodes the counter half, whatever stood there. -/
theorem counterEncoded_cbbInc (s : State) : CounterEncoded s.cbbInc := counterEncoded_of_cb rfl

/-- `CBB_INC` keeps the nonce half (R121). -/
theorem sameNonceHalf_cbbInc (s : State) : SameNonceHalf s s.cbbInc := by
  intro i
  simp only [State.cbbInc_cb, joinBlock_low, nonceHalf_get]

/-! ### The flags (R33, R34) -/

/-- The error mask of a failed `CONSTRUCT` names at least one failed check. -/
theorem bit_zero_or_one_of_lt_four : ∀ e : Byte, e ≠ 0#8 → e.toNat < 4 → e.getLsbD 0 = true ∨ e.getLsbD 1 = true := by
  decide

/-- No command but `CONSTRUCT` and `DESTROY` writes a flag. -/
theorem Effect.sameFlags (h : Effect s i t) (hc : ∀ nf, i ≠ .construct nf) (hd : i ≠ .destroy) : SameFlags s t := by
  cases h with
  | constructOk nf | constructError nf => exact absurd rfl (hc nf)
  | destroy => exact absurd rfl hd
  | ldn | ldc | ldk | setnl | setkl | noCurblk | noInc | noXorb | curblk | inc | xorbBuffered | xorbEmpty | status =>
    exact ⟨rfl, rfl⟩

theorem Effect.construct_valid_iff {nf : Byte} (h : Effect s (.construct nf) t) :
    t.valid = true ↔ ¬ NonceError nf s ∧ ¬ KeyError s := by
  cases h with
  | constructOk _ _ hn hk => simp [hn, hk]
  | constructError _ e _ h0 h4 hn hk =>
    have hbit := bit_zero_or_one_of_lt_four e h0 h4
    rw [hn, hk] at hbit
    simpa [or_iff_not_imp_left] using hbit

theorem Effect.construct_err_iff {nf : Byte} (h : Effect s (.construct nf) t) :
    (t.err.getLsbD 0 = true ↔ NonceError nf s) ∧ (t.err.getLsbD 1 = true ↔ KeyError s) := by
  cases h with
  | constructOk _ _ hn hk => simp [hn, hk]
  | constructError _ e _ h0 h4 hn hk => simpa [errBits] using ⟨hn, hk⟩

theorem sameFlags_of_exec (h : exec i s = .next t) (hc : ∀ nf, i ≠ .construct nf) (hd : i ≠ .destroy) :
    SameFlags s t := by
  obtain he | ⟨-, rfl⟩ := exec_cases h
  · exact he.sameFlags hc hd
  · exact ⟨rfl, rfl⟩

theorem effect_of_exec_construct {nf : Byte} (hnf : nf.toNat < 2) (h : exec (.construct nf) s = .next t) :
    Effect s (.construct nf) t :=
  effect_of_exec (decide_eq_true hnf) h

/-- An illegal word writes no flag. -/
theorem sameFlags_of_illegal {w : Word} {rest : List Word} (hc : s.commands = w :: rest)
    (hd : ∀ i, decode w ≠ .ok i) (h : step s = .next t) : SameFlags s t := by
  obtain ⟨i, hi⟩ | ⟨e, he⟩ := decode_ok_or_error w
  · exact absurd hi (hd i)
  · rw [step_illegal hc he] at h
    cases h
    exact ⟨rfl, rfl⟩

/-- `E_STATE` is the answer of `CURBLK`, `INC` and `XORB` while no cipher is constructed (R174). -/
theorem answered_stateError (hv : s.valid = false) (h : exec i s = .next t)
    (hi : (∃ idx, idx.toNat < 16 ∧ i = .curblk idx) ∨ i = .inc ∨ ∃ b, i = .xorb b) : Answered s t 0x04 0x00 := by
  have hs : exec i s = .next (s.answer ⟨0x04, 0⟩) := by
    obtain ⟨_, hidx, rfl⟩ | rfl | ⟨b, rfl⟩ := hi
    · exact exec_curblk_not_ready s hidx hv
    · exact exec_inc_not_ready s hv
    · exact exec_xorb_not_ready s b hv
  cases hs.symm.trans h
  exact ⟨rfl, rfl⟩

/-- Settles O47, from the effects of `CONSTRUCT` and `DESTROY` and the flags every other command keeps. -/
theorem validFollowsConstructAndDestroy : Obligations.ValidFollowsConstructAndDestroy := by
  refine ⟨fun i s t h => ⟨?_, ?_, ?_, fun hv => answered_stateError hv h⟩, ?_, rfl, fun _ => rfl⟩
  · rintro nf rfl hnf
    exact (effect_of_exec_construct hnf h).construct_valid_iff
  · rintro rfl
    cases (exec_destroy s).symm.trans h
    rfl
  · exact fun hc hd => (sameFlags_of_exec h hc hd).1
  · exact fun s t w rest hc hd h => (sameFlags_of_illegal hc hd h).1

/-- Settles O48, as O47 with the two error bits of `CONSTRUCT`. -/
theorem errHoldsTheLastConstructErrors : Obligations.ErrHoldsTheLastConstructErrors := by
  refine ⟨fun i s t h => ⟨?_, ?_, ?_⟩, ?_, rfl, fun _ => rfl⟩
  · rintro nf rfl hnf
    exact (effect_of_exec_construct hnf h).construct_err_iff
  · rintro rfl
    cases (exec_destroy s).symm.trans h
    rfl
  · exact fun hc hd => (sameFlags_of_exec h hc hd).2
  · exact fun s t w rest hc hd h => (sameFlags_of_illegal hc hd h).2

/-! ### The invariants (R37) -/

/-- What (b), (c) and (d) of R37 say of a live cipher. -/
structure LiveCipher (s : State) : Prop where
  valid : s.valid = true
  err : s.err = 0
  counter : CounterEncoded s
  key : KeyWellFormed s

theorem State.Inv.live (h : s.Inv) (hv : s.valid = true) : LiveCipher s := by
  obtain ⟨-, hb, hc, hd, -⟩ := h
  exact ⟨hv, hb hv, hc hv, hd hv⟩

theorem State.Inv.kslen_le (h : s.Inv) : s.kslen.val ≤ 15 := by
  obtain ⟨-, -, -, -, he⟩ := h
  exact he

theorem LiveCipher.inv (h : LiveCipher s) (hl : s.kslen.val ≤ 15) : s.Inv :=
  ⟨fun hv => absurd hv (by simp [h.valid]), fun _ => h.err, fun _ => h.counter, fun _ => h.key, hl⟩

theorem CipherZero.kslen_eq (h : CipherZero s) : s.kslen = 0 := by
  obtain ⟨-, -, -, -, -, hl⟩ := h
  exact hl

/-- Without a cipher (b), (c) and (d) say nothing. -/
theorem CipherZero.inv (hz : CipherZero s) (hv : s.valid = false) : s.Inv := by
  have hdead : s.valid ≠ true := by simp [hv]
  exact ⟨fun _ => hz, fun h => absurd h hdead, fun h => absurd h hdead, fun h => absurd h hdead,
    by simp [hz.kslen_eq]⟩

theorem cipherZero_discard (s : State) : CipherZero s.discard := ⟨rfl, rfl, rfl, rfl, rfl, rfl⟩

/-- `CBB_INC` keeps a live cipher live: it re-encodes the counter half. -/
theorem LiveCipher.cbbInc (h : LiveCipher s) : LiveCipher s.cbbInc := ⟨h.valid, h.err, counterEncoded_cbbInc s, h.key⟩

theorem LiveCipher.exchange (h : LiveCipher s) (enc : List Byte → Block → Block) : LiveCipher (s.exchange enc) :=
  ⟨h.valid, h.err, h.counter, h.key⟩

theorem LiveCipher.pop (h : LiveCipher s) : LiveCipher s.pop := ⟨h.valid, h.err, h.counter, h.key⟩

theorem popped_le (l : Fin 17) : (popped l).val ≤ 15 := by
  have := l.isLt
  rw [popped_val]
  omega

/-- A pop leaves room in the buffer, so it restores (e) also after a refill, which breaks it (R37(e)). -/
theorem LiveCipher.inv_pop (h : LiveCipher s) : s.pop.Inv := h.pop.inv (popped_le s.kslen)

/-- The key copy of a supported length is zero from that length on (R37(d)). -/
theorem keyWellFormed_takeKey (hk : ¬ KeyError s) : KeyWellFormed s.takeKey := by
  refine ⟨by simpa [KeyError] using hk, fun j hj => ?_⟩
  rw [State.takeKey_keylen] at hj
  simp only [State.takeKey_key, keyCopy_get, if_neg (Nat.not_lt.2 hj)]
  rfl

/-- What a passing `CONSTRUCT` builds is a live cipher. -/
theorem liveCipher_build (hk : ¬ KeyError s) :
    LiveCipher ((s.discard.setErr 0).cbbBuild s.n s.cin).takeKey.setValid :=
  ⟨rfl, rfl, counterEncoded_of_cb rfl, keyWellFormed_takeKey (s := (s.discard.setErr 0).cbbBuild s.n s.cin) hk⟩

/-- Every effect keeps the invariants. The answer itself and the staging registers are in none of them. -/
theorem Effect.inv (h : Effect s i t) (hs : s.Inv) : t.Inv := by
  cases h with
  | ldn | ldc | ldk | setnl | setkl | noCurblk | noInc | noXorb | curblk | status => exact hs
  | constructOk _ _ _ hk => exact (liveCipher_build hk).inv (Nat.zero_le _)
  | constructError | destroy => exact CipherZero.inv (cipherZero_discard s) rfl
  | inc hv => exact (hs.live hv).cbbInc.inv hs.kslen_le
  | xorbBuffered _ hv => exact (hs.live hv).inv_pop
  | xorbEmpty _ hv => exact ((hs.live hv).exchange _).cbbInc.inv_pop

theorem inv_reset : State.reset.Inv := CipherZero.inv ⟨rfl, rfl, rfl, rfl, rfl, rfl⟩ rfl

/-- Settles O49: after reset there is no cipher, and its registers are zero. -/
theorem resetMeetsTheInvariant : Obligations.ResetMeetsTheInvariant := inv_reset

/-- Settles O50: an idle step and an illegal word touch no register, and every effect keeps the invariants. -/
theorem stepKeepsTheInvariant : Obligations.StepKeepsTheInvariant := by
  intro s t hs h
  obtain rfl | ⟨_, _, -, rfl | ⟨_, -, he⟩⟩ := step_next_cases h
  · exact hs
  · exact hs
  · exact he.inv hs

/-- The nonce half changes in a `CONSTRUCT` or a `DESTROY` only (R37(f)). -/
theorem Effect.construct_or_destroy_of_nonceHalf (h : Effect s i t) (hne : ¬ SameNonceHalf s t) :
    (∃ nf, i = .construct nf) ∨ i = .destroy := by
  cases h with
  | constructOk nf | constructError nf => exact .inl ⟨nf, rfl⟩
  | destroy => exact .inr rfl
  | inc | xorbEmpty => exact absurd (sameNonceHalf_cbbInc s) hne
  | ldn | ldc | ldk | setnl | setkl | noCurblk | noInc | noXorb | curblk | xorbBuffered | status =>
    exact absurd (fun _ => rfl) hne

/-- Settles O51: (a) to (e) by O50 along the run from reset, (f) by the effects that write the nonce half. -/
theorem everyCommandBoundaryMeetsTheInvariant : Obligations.EveryCommandBoundaryMeetsTheInvariant := by
  constructor
  · intro ws n t h
    exact Laws.run_keeps core State.Inv stepKeepsTheInvariant n (s := State.reset.issue ws) inv_reset h
  · intro s t h hne
    obtain rfl | ⟨w, rest, hc, rfl | ⟨i, hd, he⟩⟩ := step_next_cases h
    · exact absurd (fun _ => rfl) hne
    · exact absurd (fun _ => rfl) hne
    · obtain ⟨nf, rfl⟩ | rfl := he.construct_or_destroy_of_nonceHalf hne
      · exact ⟨w, rest, hc, .inl ⟨nf, hd⟩⟩
      · exact ⟨w, rest, hc, .inr hd⟩

/-! ### Every write of the counter (R28) -/

/-- The commands whose rules write `CTR`: `CONSTRUCT`, `DESTROY`, `INC` on a live cipher, and an `XORB` that refills. -/
def WritesCounter (s : State) (i : Instr) : Prop :=
  (∃ nf, nf.toNat < 2 ∧ i = .construct nf) ∨ i = .destroy ∨ (i = .inc ∧ s.valid = true) ∨
    ∃ b, i = .xorb b ∧ s.valid = true ∧ s.kslen = 0

theorem WritesCounter.wellFormed (h : WritesCounter s i) : wellFormed i = true := by
  obtain ⟨_, hnf, rfl⟩ | rfl | ⟨rfl, -⟩ | ⟨_, rfl, -⟩ := h
  · exact decide_eq_true hnf
  all_goals rfl

/-- An effect leaves the counter half encoded, or it is of a command that leaves the counter block and `VALID` alone. -/
theorem Effect.counterEncoded_or_kept (h : Effect s i t) :
    CounterEncoded t ∨ (t.cb = s.cb ∧ t.ctr = s.ctr ∧ t.valid = s.valid ∧ ¬ WritesCounter s i) := by
  cases h with
  | constructOk => exact .inl (counterEncoded_of_cb rfl)
  | constructError | destroy => exact .inl (cipherZero_discard s).counterEncoded
  | inc => exact .inl (counterEncoded_cbbInc s)
  | xorbEmpty => exact .inl (counterEncoded_cbbInc (s.exchange Config.blkEnc))
  | noInc hv | noXorb _ hv => exact .inr ⟨rfl, rfl, rfl, by simp [WritesCounter, hv]⟩
  | xorbBuffered _ _ hl =>
    have hne : s.kslen ≠ 0 := fun h0 => hl (by simp [h0])
    exact .inr ⟨rfl, rfl, rfl, by simp [WritesCounter, hne]⟩
  | ldn | ldc | ldk | setnl | setkl | noCurblk | curblk | status =>
    exact .inr ⟨rfl, rfl, rfl, by simp [WritesCounter]⟩

theorem Effect.counterEncoded_of_valid (h : Effect s i t) (hs : s.valid = true → CounterEncoded s)
    (hv : t.valid = true) : CounterEncoded t := by
  obtain henc | ⟨hcb, hctr, hvalid, -⟩ := h.counterEncoded_or_kept
  · exact henc
  · intro j
    simp only [hcb, hctr]
    exact hs (hvalid ▸ hv) j

theorem counterEncoded_of_exec (h : exec i s = .next t) (hw : t.ctr ≠ s.ctr ∨ WritesCounter s i) :
    CounterEncoded t := by
  obtain he | ⟨hill, rfl⟩ := exec_cases h
  · obtain henc | ⟨-, hctr, -, hno⟩ := he.counterEncoded_or_kept
    · exact henc
    · exact absurd hw (not_or.2 ⟨not_not.2 hctr, hno⟩)
  · obtain hne | hwrites := hw
    · exact absurd rfl hne
    · simp [hwrites.wellFormed] at hill

/-- Settles O52, by what every effect does to the counter half. -/
theorem counterHalfAlwaysEncodesTheCounter : Obligations.CounterHalfAlwaysEncodesTheCounter := by
  refine ⟨fun s t hs h => ?_, fun hv => (inv_reset.live hv).counter, fun i s t => counterEncoded_of_exec⟩
  obtain rfl | ⟨_, _, -, rfl | ⟨_, -, he⟩⟩ := step_next_cases h
  · exact hs
  · exact hs
  · exact he.counterEncoded_of_valid hs

/-! ### The staging registers (R20, R115) -/

/-- Settles O18: each staging command writes the register it is named for, and every other effect writes none. -/
theorem stagingChangedOnlyByItsCommand : Obligations.StagingChangedOnlyByItsCommand := by
  intro i s t h
  obtain he | ⟨-, rfl⟩ := exec_cases h
  · cases he with
    | ldn | ldc | ldk | setnl | setkl => simp -- four registers are kept, the fifth is the command's own
    | constructOk | constructError | noCurblk | noInc | noXorb | curblk | inc | xorbBuffered | xorbEmpty | status
    | destroy => simp -- all five are kept
  · simp

/-! ### What a response can show (R36, R162) -/

/-- The response of `CONSTRUCT` is its error mask. -/
theorem constructWith_responses (s : State) (supported : Byte → Bool) (form : NonceForm) :
    (s.constructWith supported form).responses = s.responses ++ [⟨constructErrors supported form s, 0⟩] := by
  by_cases he : constructErrors supported form s = 0
  · simp [State.constructWith, he]
  · rw [s.constructWith_error rfl he]
    rfl

/-- The two checks of `CONSTRUCT` read `NLEN` and `KLEN` alone. -/
theorem constructErrors_congr {s' : State} (supported : Byte → Bool) (form : NonceForm) (hn : s'.nlen = s.nlen)
    (hk : s'.klen = s.klen) : constructErrors supported form s' = constructErrors supported form s := by
  simp only [constructErrors, hn, hk]

/-- The nonce form is `nf`'s alone: it is the same in every state. -/
theorem exec_construct_uniform_form {nf : Byte} (hnf : nf.toNat < 2) :
    ∃ form, ∀ s, exec (.construct nf) s = .next (s.constructWith keyLenSupported form) := by
  obtain rfl | rfl := nf_eq_zero_or_one hnf
  · exact ⟨.value, exec_construct_zero⟩
  · exact ⟨.buffer, exec_construct_one⟩

theorem exec_curblk_responses {idx : Byte} (hidx : idx.toNat < 16) (h : exec (.curblk idx) s = .next t) :
    t.responses = s.responses ++ [if s.valid then ⟨0, s.cb[idx.toNat]⟩ else ⟨0x04, 0⟩] := by
  cases effect_of_exec (i := .curblk idx) (decide_eq_true hidx) h with
  | noCurblk _ _ hv | curblk _ _ hv => simp [hv]

theorem exec_inc_responses (h : exec .inc s = .next t) :
    t.responses = s.responses ++ [if s.valid then ⟨0, 0⟩ else ⟨0x04, 0⟩] := by
  cases effect_of_exec rfl h with
  | noInc hv | inc hv => simp [hv]

theorem exec_status_responses (h : exec .status s = .next t) :
    t.responses = s.responses ++ [⟨0, statusView s⟩] := by
  cases h
  rfl

/-- The status view reads `KSLEN` and the flags alone. -/
theorem statusView_congr {s' : State} (hl : s'.kslen = s.kslen) (hf : SameFlags s s') :
    statusView s' = statusView s := by
  obtain ⟨hvalid, herr⟩ := hf
  simp only [statusView, hl, hvalid, herr]

/-- Settles O53: the answer of each command but `XORB` is constant, or read from registers on which the states agree. -/
theorem keyAndKeystreamCannotBeReadBack : Obligations.KeyAndKeystreamCannotBeReadBack := by
  intro i s s' t t' hx hnlen hklen hcb hkslen hf hr h h'
  have hvalid : s'.valid = s.valid := hf.1
  cases hw : wellFormed i with
  | false =>
    cases (exec_of_not_wellFormed s hw).symm.trans h
    cases (exec_of_not_wellFormed s' hw).symm.trans h'
    simp [hr]
  | true =>
    cases i with
    | xorb b => exact absurd rfl (hx b)
    | construct nf =>
      obtain ⟨form, hform⟩ := exec_construct_uniform_form (of_decide_eq_true hw)
      cases (hform s).symm.trans h
      cases (hform s').symm.trans h'
      rw [constructWith_responses, constructWith_responses, constructErrors_congr _ _ hnlen hklen, hr]
    | curblk idx =>
      have hidx : idx.toNat < 16 := of_decide_eq_true hw
      simp only [exec_curblk_responses hidx h, exec_curblk_responses hidx h', hr, hvalid, hcb]
    | inc => rw [exec_inc_responses h, exec_inc_responses h', hr, hvalid]
    | status => rw [exec_status_responses h, exec_status_responses h', hr, statusView_congr hkslen hf]
    | ldn | ldc | ldk | setnl | setkl | destroy =>
      cases effect_of_exec hw h
      cases effect_of_exec hw h'
      simp [hr]

end Sys2Proof.Machine
end

section
/-! PROOFS. The statement about the host's staged numbers (spec/20_memory.md R54, R55, R57; spec/30_encoding.md R92).

A pseudo-instruction that loads bytes is one staging command per byte. `LoadsByte` says what one such command does to a
register seen as a vector of bytes; `run_loadFrom` carries that over the bytes of the list. `LOADCTR` is such a load of
the little-endian bytes of `CIN`. -/

namespace Sys2Proof.Machine

/-! ### A command from its word (R81, R87) -/

/-- The word of a well-formed command decodes to it: its fields are the command's row of R84, and within its ranges. -/
theorem decode_encode {i : Instr} (hw : wellFormed i = true) : decode (encode i) = .ok i := by
  cases i with
  | ldn idx _ | ldc idx _ | ldk idx _ | construct idx | curblk idx =>
    have hidx := of_decide_eq_true hw
    simpa [decode_eq_ok_iff, encode, commandRows] using hidx
  | setnl | setkl | inc | xorb | status | destroy => simp [decode_eq_ok_iff, encode, commandRows]

theorem step_encode {s : State} {i : Instr} {rest : List Word} (hw : wellFormed i = true)
    (hc : s.commands = encode i :: rest) : step s = exec i { s with commands := rest } :=
  step_command hc (decode_encode hw)

/-! ### Loading a register byte by byte (R92) -/

/-- `mk idx b` on the command port writes byte `idx` of the register `reg` and nothing that `frame` reads. -/
def LoadsByte {size : Nat} {α : Type} (mk : Byte → Byte → Instr) (reg : State → Vector Byte size)
    (frame : State → α) : Prop :=
  ∀ (s : State) (idx b : Byte) (rest : List Word) (h : idx.toNat < size), s.commands = encode (mk idx b) :: rest →
    ∃ t, step s = .next t ∧ t.commands = rest ∧ reg t = (reg s).set idx.toNat b ∧ frame t = frame s

/-- Loading `bs` from index `start` on takes one step per byte and puts them there; the bytes below stay. -/
theorem run_loadFrom {size : Nat} {α : Type} {mk : Byte → Byte → Instr} {reg : State → Vector Byte size}
    {frame : State → α} (hload : LoadsByte mk reg frame) (hsize : size ≤ 256) {rest : List Word} (bs : List Byte)
    {start : Nat} (hfit : start + bs.length ≤ size) {s : State}
    (hc : s.commands = words (loadFrom mk start bs) ++ rest) :
    ∃ t, Sys2Proof.core.run bs.length s = .next t ∧ t.commands = rest ∧ frame t = frame s ∧
      (∀ (i : Nat) (_ : i < start), (reg t)[i] = (reg s)[i]) ∧
      ∀ (k : Nat) (_ : k < bs.length), (reg t)[start + k] = bs[k] := by
  induction bs generalizing start s with
  | nil => exact ⟨s, rfl, hc, rfl, fun _ _ => rfl, nofun⟩
  | cons b bs ih =>
    rw [List.length_cons] at hfit
    have hidx : (BitVec.ofNat 8 start).toNat = start := Nat.mod_eq_of_lt (by omega)
    obtain ⟨u, hu, hcu, hreg, hframe⟩ := hload s (BitVec.ofNat 8 start) b _ (by omega) hc
    simp only [hidx] at hreg
    obtain ⟨t, ht, hct, hframe', hbelow, habove⟩ := ih (by omega) hcu
    refine ⟨t, (core_run_next _ hu).trans ht, hct, hframe'.trans hframe, fun i hi => ?_, fun k hk => ?_⟩
    · rw [hbelow i (by omega)]
      simp only [hreg]
      exact Vector.getElem_set_ne _ _ (by omega)
    · cases k with
      | zero => simp [hbelow start (by omega), hreg]
      | succ k =>
        have hnext := habove k (Nat.lt_of_succ_lt_succ hk)
        simp only [Nat.add_right_comm start 1 k] at hnext
        exact hnext

/-- Loading a whole register. -/
theorem run_loadFrom_toList {size : Nat} {α : Type} {mk : Byte → Byte → Instr} {reg : State → Vector Byte size}
    {frame : State → α} (hload : LoadsByte mk reg frame) (hsize : size ≤ 256) {rest : List Word}
    (bs : Vector Byte size) {s : State} (hc : s.commands = words (loadFrom mk 0 bs.toList) ++ rest) :
    ∃ t, Sys2Proof.core.run size s = .next t ∧ t.commands = rest ∧ frame t = frame s ∧ reg t = bs := by
  obtain ⟨t, ht, hct, hframe, -, hbytes⟩ := run_loadFrom hload hsize bs.toList (by simp) hc
  rw [Vector.length_toList] at ht
  refine ⟨t, ht, hct, hframe, ?_⟩
  ext k hk : 1
  have hk' : k < bs.toList.length := by rwa [Vector.length_toList]
  simpa only [Nat.zero_add] using (hbytes k hk').trans (Vector.getElem_toList hk')

/-! ### The nonce and the start counter -/

/-- Of the little-endian bytes, writing a byte lane replaces the byte of that lane (R57, R111). -/
theorem le64_setLane (v : Counter) (i : Fin 8) (b : Byte) : le64 (setLane v i b) = (le64 v).set i.val b := by
  ext j hj m hm
  rw [le64_get _ ⟨j, hj⟩, BitVec.getElem_extractLsb', setLane_bit _ _ _ _ (by omega),
    show (8 * j + m) / 8 = j by omega, show (8 * j + m) % 8 = m by omega]
  obtain rfl | hne := eq_or_ne i.val j
  · rw [if_pos rfl, Vector.getElem_set_self, BitVec.getLsbD_eq_getElem hm]
  · rw [if_neg hne.symm, Vector.getElem_set_ne _ hj hne, le64_get v ⟨j, hj⟩, BitVec.getElem_extractLsb']

theorem loadsByte_ldn : LoadsByte .ldn State.n fun s => (s.cin, s.klen) := fun _ _ b _ h hc =>
  ⟨_, (step_encode (i := .ldn _ b) (decide_eq_true h) hc).trans (exec_ldn _ b h), rfl, rfl, rfl⟩

theorem loadsByte_ldc : LoadsByte .ldc (fun s => le64 s.cin) fun s => (s.n, s.klen) := fun s _ b _ h hc =>
  ⟨_, (step_encode (i := .ldc _ b) (decide_eq_true h) hc).trans (exec_ldc _ b h), rfl, le64_setLane s.cin ⟨_, h⟩ b, rfl⟩

/-- `LOADNONCE v`, for the value form. -/
theorem run_loadNonce {s : State} (v : Counter) {rest : List Word} (hc : s.commands = words (loadNonce v) ++ rest) :
    ∃ t, Sys2Proof.core.run 8 s = .next t ∧ t.commands = rest ∧ t.n = le64 v ∧ t.cin = s.cin ∧ t.klen = s.klen := by
  obtain ⟨t, ht, hct, hframe, hn⟩ := run_loadFrom_toList loadsByte_ldn (by decide) (le64 v) hc
  obtain ⟨hcin, hklen⟩ := Prod.mk.inj hframe
  exact ⟨t, ht, hct, hn, hcin, hklen⟩

/-- `LOADCTR c`: the bytes of `CIN` determine it. -/
theorem run_loadCtr {s : State} (c : Counter) {rest : List Word} (hc : s.commands = words (loadCtr c) ++ rest) :
    ∃ t, Sys2Proof.core.run 8 s = .next t ∧ t.commands = rest ∧ t.cin = c ∧ t.n = s.n ∧ t.klen = s.klen := by
  obtain ⟨t, ht, hct, hframe, hcin⟩ := run_loadFrom_toList loadsByte_ldc (by decide) (le64 c) hc
  obtain ⟨hn, hklen⟩ := Prod.mk.inj hframe
  exact ⟨t, ht, hct, le64_injective hcin, hn, hklen⟩

/-- `CONSTRUCT 0` with a supported `KLEN` builds the block from the staged numbers; the value form reads no `NLEN`. -/
theorem step_construct_zero {s : State} {rest : List Word} (hk : keyLenSupported s.klen = true)
    (hc : s.commands = encode (.construct 0) :: rest) :
    ∃ t, step s = .next t ∧ t.valid = true ∧ t.ctr = s.cin ∧ t.cb = joinBlock s.n (be64 s.cin) :=
  ⟨_, (step_encode rfl hc).trans (exec_construct_ok _ (by decide) (by simp [NonceError]) (by simp [KeyError, hk])),
    rfl, rfl, rfl⟩

/-- Settles O20: two loads of eight steps, then one `CONSTRUCT`, whose block holds the nonce bytes as staged and the
counter re-encoded. -/
theorem stagedNumbersReachTheBlock : Obligations.StagedNumbersReachTheBlock := by
  intro s v c hk hc
  rw [words, List.map_append, List.map_append, List.append_assoc] at hc
  obtain ⟨t₁, h₁, hc₁, hn₁, -, hk₁⟩ := run_loadNonce v hc
  obtain ⟨t₂, h₂, hc₂, hcin₂, hn₂, hk₂⟩ := run_loadCtr c hc₁
  obtain ⟨t, ht, hvalid, hctr, hcb⟩ := step_construct_zero (by rw [hk₂, hk₁, hk]) hc₂
  rw [hcin₂] at hctr
  rw [hn₂, hn₁, hcin₂] at hcb
  have hrun : Sys2Proof.core.run 17 s = .next t :=
    calc Sys2Proof.core.run 17 s = Sys2Proof.core.run 9 t₁ := Laws.run_add core 8 9 h₁
      _ = Sys2Proof.core.run 1 t₂ := Laws.run_add core 8 1 h₂
      _ = .next t := core_run_next 0 ht
  refine ⟨t, hrun, hvalid, hctr, fun i => ?_, fun j => ?_⟩
  · simp only [hcb, joinBlock_low, le64_get]
  · simp only [hcb, joinBlock_high, be64_get]

end Sys2Proof.Machine
end

section
/-! PROOFS. The statements about the encoding (spec/30_encoding.md R81, R84 to R88; spec/95_test_vectors.md section 3.8).

Everything is said of the rows of R84: a row accepts a word when the word's fields pass its tests (`Accepts`), a word
decodes by the row that accepts it, a row's pattern of R86 holds of the words it accepts, and these words can be listed. -/

namespace Sys2Proof

open Machine

/-! ### The rows of R84 -/

/-- How many values of `imm8` are legal in a command of the row: they are 0 up to that number less one. -/
def CommandRow.immCount (r : CommandRow) : Nat := if r.takesImm then 256 else 1

/-- The four fields of the word pass the tests of the row. -/
def CommandRow.Accepts (r : CommandRow) (w : Word) : Prop :=
  zeroOf w = 0#8 ∧ opcodeOf w = r.opcode ∧ (idxOf w).toNat < r.idxCount ∧ (immOf w).toNat < r.immCount

theorem CommandRow.lt_immCount_iff (r : CommandRow) (imm8 : Byte) :
    imm8.toNat < r.immCount ↔ r.takesImm = true ∨ imm8 = 0#8 := by
  cases h : r.takesImm with
  | true => simp [immCount, h, imm8.isLt]
  | false => simp [immCount, h, ← BitVec.toNat_inj]

/-- The opcodes of R84 are different from each other. -/
theorem commandRows_pairwise_opcode_ne : commandRows.Pairwise fun r r' => r.opcode ≠ r'.opcode := by
  simp [commandRows]

/-- `find_commandRow`, the other way round: no row before `r` has its opcode. -/
theorem find_commandRow_opcode {r : CommandRow} (hr : r ∈ commandRows) :
    commandRows.find? (fun r' => r'.opcode == r.opcode) = some r := by
  simp only [commandRows, List.mem_cons, List.not_mem_nil, or_false] at hr
  rcases hr with rfl | rfl | rfl | rfl | rfl | rfl | rfl | rfl | rfl | rfl | rfl <;> rfl

/-- A word decodes by the row that accepts it. -/
theorem decode_eq_ok_iff_accepts (w : Word) (i : Instr) :
    decode w = .ok i ↔ ∃ r ∈ commandRows, r.Accepts w ∧ r.make (idxOf w) (immOf w) = i := by
  rw [decode_eq_ok_iff]
  constructor
  · rintro ⟨hz, r, hfind, hidx, himm, hi⟩
    obtain ⟨hr, hop⟩ := find_commandRow hfind
    exact ⟨r, hr, ⟨hz, hop.symm, hidx, (r.lt_immCount_iff _).2 himm⟩, hi⟩
  · rintro ⟨r, hr, ⟨hz, hop, hidx, himm⟩, hi⟩
    exact ⟨hz, r, hop ▸ find_commandRow_opcode hr, hidx, (r.lt_immCount_iff _).1 himm, hi⟩

theorem decodes_iff_accepts (w : Word) : (∃ i, decode w = .ok i) ↔ ∃ r ∈ commandRows, r.Accepts w := by
  simp only [decode_eq_ok_iff_accepts]
  exact ⟨fun ⟨_, r, hr, hw, _⟩ => ⟨r, hr, hw⟩, fun ⟨r, hr, hw⟩ => ⟨_, r, hr, hw, rfl⟩⟩

/-! ### Decoding and encoding are inverse (R81, R85, R87) -/

/-- Settles O1: the fields of the word are the operands of the command, within the ranges of its row. -/
theorem decodeOfEncodeIsIdentity : Obligations.DecodeOfEncodeIsIdentity := fun _ => decode_encode

/-- The word of a row's command holds the row's opcode and the operands; an operand the command does not take is 0. -/
theorem encode_make {r : CommandRow} (hr : r ∈ commandRows) {idx imm8 : Byte} (hidx : idx.toNat < r.idxCount)
    (himm : imm8.toNat < r.immCount) : encode (r.make idx imm8) = packWord r.opcode idx 0 imm8 := by
  have hzero (b : Byte) : b.toNat = 0 ↔ b = 0#8 := by simp [← BitVec.toNat_inj]
  simp only [commandRows, List.mem_cons, List.not_mem_nil, or_false] at hr
  rcases hr with rfl | rfl | rfl | rfl | rfl | rfl | rfl | rfl | rfl | rfl | rfl <;> -- a count of 1 leaves only 0
    simp_all [CommandRow.lt_immCount_iff, encode]

/-- Settles O2, from the row that accepts the word. -/
theorem encodeOfDecodeIsIdentity : Obligations.EncodeOfDecodeIsIdentity := by
  intro w i h
  refine ⟨wellFormed_of_decode h, ?_⟩
  obtain ⟨r, hr, ⟨hz, hop, hidx, himm⟩, rfl⟩ := (decode_eq_ok_iff_accepts w i).1 h
  calc encode (r.make (idxOf w) (immOf w)) = packWord r.opcode (idxOf w) 0 (immOf w) := encode_make hr hidx himm
    _ = packWord (opcodeOf w) (idxOf w) (zeroOf w) (immOf w) := by rw [hop, hz]; rfl
    _ = w := packWord_fields w

/-- Settles O4: the tests are those of the eleven rows, written out. -/
theorem fieldTestsDecideLegality : Obligations.FieldTestsDecideLegality := by
  intro w
  rw [decodes_iff_accepts]
  conv_lhs =>
    simp only [commandRows, List.mem_cons, List.not_mem_nil, or_false, exists_eq_or_imp, exists_eq_left, ← and_or_left,
      CommandRow.Accepts, CommandRow.immCount, ↓reduceIte, Bool.false_eq_true, ← BitVec.toNat_inj (x := opcodeOf w),
      (immOf w).isLt, and_true, Nat.lt_succ_iff, Order.lt_one_iff]
  rfl

/-- Settles O5, by decoding the twelve words. -/
theorem sampleWordsDecode : Obligations.SampleWordsDecode :=
  ⟨rfl, rfl, rfl, rfl, rfl, rfl, rfl, rfl, rfl, rfl, rfl, rfl⟩

/-! ### The mask and match table (R86) -/

theorem eq_packWord_iff (w : Word) (a b c d : Byte) :
    w = packWord a b c d ↔ zeroOf w = c ∧ opcodeOf w = a ∧ idxOf w = b ∧ immOf w = d := by
  constructor
  · rintro rfl
    simp
  · rintro ⟨rfl, rfl, rfl, rfl⟩
    exact (packWord_fields w).symm

theorem opcodeOf_and (w v : Word) : opcodeOf (w &&& v) = opcodeOf w &&& opcodeOf v := BitVec.extractLsb'_and

theorem idxOf_and (w v : Word) : idxOf (w &&& v) = idxOf w &&& idxOf v := BitVec.extractLsb'_and

theorem zeroOf_and (w v : Word) : zeroOf (w &&& v) = zeroOf w &&& zeroOf v := BitVec.extractLsb'_and

theorem immOf_and (w v : Word) : immOf (w &&& v) = immOf w &&& immOf v := BitVec.extractLsb'_and

/-- A byte is below a power of two when the bits from that power on are 0. -/
theorem and_mask_eq_zero_iff : ∀ (m : Fin 9) (b : Byte),
    b &&& BitVec.ofNat 8 (256 - 2 ^ m.val) = 0#8 ↔ b.toNat < 2 ^ m.val := by
  decide

/-- The pattern of a row: the mask leaves out the bits in which the operands differ. -/
def CommandRow.pattern (r : CommandRow) : Pattern where
  mnemonic := (r.make 0 0).mnemonic
  value := packWord r.opcode 0 0 0
  mask := packWord 0xFF (BitVec.ofNat 8 (256 - r.idxCount)) 0xFF (BitVec.ofNat 8 (256 - r.immCount))

/-- R86 is R84, row by row. -/
theorem patterns_eq_map : patterns = commandRows.map CommandRow.pattern := rfl

/-- The legal values of an operand are those of some number of bits. -/
theorem commandRow_counts : ∀ r ∈ commandRows,
    (∃ m : Fin 9, r.idxCount = 2 ^ m.val) ∧ ∃ m : Fin 9, r.immCount = 2 ^ m.val := by
  decide

theorem pattern_holds_iff {r : CommandRow} (hr : r ∈ commandRows) (w : Word) : r.pattern.holds w ↔ r.Accepts w := by
  obtain ⟨⟨m, hidx⟩, m', himm⟩ := commandRow_counts r hr
  have hones (b : Byte) : b &&& 255#8 = b := BitVec.and_allOnes
  simp only [Pattern.holds, CommandRow.pattern, CommandRow.Accepts, eq_packWord_iff, opcodeOf_and, idxOf_and,
    zeroOf_and, immOf_and, opcodeOf_packWord, idxOf_packWord, zeroOf_packWord, immOf_packWord, BitVec.ofNat_eq_ofNat,
    hones, hidx, himm, and_mask_eq_zero_iff]

/-- No word matches two rows, because it has one opcode. -/
theorem patterns_exclusive (w : Word) : patterns.Pairwise fun p q => ¬ (p.holds w ∧ q.holds w) := by
  rw [patterns_eq_map, List.pairwise_map]
  refine commandRows_pairwise_opcode_ne.imp_of_mem fun {r r'} hr hr' hne => ?_
  rw [pattern_holds_iff hr, pattern_holds_iff hr']
  rintro ⟨⟨-, hop, -⟩, -, hop', -⟩
  exact hne (hop.symm.trans hop')

theorem decodes_iff_pattern (w : Word) : (∃ i, decode w = .ok i) ↔ ∃ p ∈ patterns, p.holds w := by
  rw [decodes_iff_accepts, patterns_eq_map]
  simp only [List.mem_map, exists_exists_and_eq_and]
  exact exists_congr fun r => and_congr_right fun hr => (pattern_holds_iff hr w).symm

/-! ### The legal words (R86) -/

/-- The bytes 0 up to `n` less one. -/
def bytesBelow (n : Nat) : List Byte := (List.range n).map (BitVec.ofNat 8)

theorem mem_bytesBelow {n : Nat} {b : Byte} : b ∈ bytesBelow n ↔ b.toNat < n := by
  rw [bytesBelow, List.mem_map]
  constructor
  · rintro ⟨m, hm, rfl⟩
    exact (Nat.mod_le _ _).trans_lt (List.mem_range.1 hm)
  · exact fun h => ⟨b.toNat, List.mem_range.2 h, by simp⟩

theorem nodup_bytesBelow {n : Nat} (hn : n ≤ 256) : (bytesBelow n).Nodup := by
  refine List.nodup_range.map_on fun x hx y hy h => ?_
  rw [List.mem_range] at hx hy
  rwa [← BitVec.toNat_inj, BitVec.toNat_ofNat, BitVec.toNat_ofNat, Nat.mod_eq_of_lt (by omega),
    Nat.mod_eq_of_lt (by omega)] at h

/-- The words a row accepts: one for every choice of its operands. -/
def CommandRow.acceptedWords (r : CommandRow) : List Word :=
  (bytesBelow r.idxCount ×ˢ bytesBelow r.immCount).map fun p => packWord r.opcode p.1 0 p.2

theorem CommandRow.mem_acceptedWords {r : CommandRow} {w : Word} : w ∈ r.acceptedWords ↔ r.Accepts w := by
  simp only [acceptedWords, List.mem_map, Prod.exists, List.mem_product, mem_bytesBelow, eq_comm (b := w),
    eq_packWord_iff]
  constructor
  · rintro ⟨_, _, ⟨hidx, himm⟩, hz, hop, rfl, rfl⟩
    exact ⟨hz, hop, hidx, himm⟩
  · rintro ⟨hz, hop, hidx, himm⟩
    exact ⟨_, _, ⟨hidx, himm⟩, hz, hop, rfl, rfl⟩

theorem CommandRow.nodup_acceptedWords {r : CommandRow} (hr : r ∈ commandRows) : r.acceptedWords.Nodup := by
  have hcounts : ∀ r ∈ commandRows, r.idxCount ≤ 256 ∧ r.immCount ≤ 256 := by decide
  obtain ⟨hidx, himm⟩ := hcounts r hr
  refine ((nodup_bytesBelow hidx).product (nodup_bytesBelow himm)).map fun p q h => ?_
  obtain ⟨-, -, hfst, hsnd⟩ := (eq_packWord_iff _ _ _ _ _).1 h
  simpa [Prod.ext_iff] using And.intro hfst hsnd

theorem CommandRow.length_acceptedWords (r : CommandRow) : r.acceptedWords.length = r.idxCount * r.immCount := by
  simp [acceptedWords, bytesBelow, List.length_product]

/-- The words that are some command, row by row. -/
def legalWords : List Word := commandRows.flatMap CommandRow.acceptedWords

theorem mem_legalWords {w : Word} : w ∈ legalWords ↔ ∃ i, decode w = .ok i := by
  simp only [legalWords, List.mem_flatMap, CommandRow.mem_acceptedWords, decodes_iff_accepts]

theorem nodup_legalWords : legalWords.Nodup := by
  refine List.nodup_flatMap.2 ⟨fun r => CommandRow.nodup_acceptedWords, ?_⟩
  refine commandRows_pairwise_opcode_ne.imp fun hne w hr hr' => ?_
  obtain ⟨-, hop, -⟩ := CommandRow.mem_acceptedWords.1 hr
  obtain ⟨-, hop', -⟩ := CommandRow.mem_acceptedWords.1 hr'
  exact hne (hop.symm.trans hop')

theorem length_legalWords : legalWords.length = 13077 := by
  simp [legalWords, CommandRow.length_acceptedWords, commandRows, CommandRow.immCount]

/-- Settles O3: each pattern holds of the words its row accepts, and the other rows make other commands. -/
theorem maskTableDecidesLegality : Obligations.MaskTableDecidesLegality := by
  refine ⟨fun w => ?_, patterns_exclusive, decodes_iff_pattern,
    ⟨legalWords, nodup_legalWords, length_legalWords, fun _ => mem_legalWords⟩, rfl, rfl, rfl, rfl, rfl, rfl⟩
  have hpattern := fun r hr => pattern_holds_iff (r := r) hr w
  simp only [commandRows, List.forall_mem_cons] at hpattern
  obtain ⟨hldn, hldc, hldk, hsetnl, hsetkl, hconstruct, hcurblk, hinc, hxorb, hstatus, hdestroy, -⟩ := hpattern
  simp only [decode_eq_ok_iff_accepts, commandRows]
  refine ⟨.trans ?_ hldn.symm, .trans ?_ hldc.symm, .trans ?_ hldk.symm, .trans ?_ hsetnl.symm, .trans ?_ hsetkl.symm,
    .trans ?_ hconstruct.symm, .trans ?_ hcurblk.symm, .trans ?_ hinc.symm, .trans ?_ hxorb.symm,
    .trans ?_ hstatus.symm, .trans ?_ hdestroy.symm⟩ <;>
    simp -- of the eleven rows only its own makes the command

end Sys2Proof
end

section
/-! PROOFS. The statements about responses (spec/30_encoding.md R82, R83, R88) and about the staged key (R92).

`Verdict` is the four ways a command word can be answered: illegal, turned away for want of a cipher, a `CONSTRUCT` whose
checks fail, carried out. `step_verdict` says that a step gives one of them; what is said of the response code is then
read off the four. -/

namespace Sys2Proof.Machine

variable {s t : State} {i : Instr} {w : Word} {rest : List Word} {r : Response}

/-- Settles O17: every index check of an ill-formed term fails. -/
theorem indexOutOfRangeIsIllegal : Obligations.IndexOutOfRangeIsIllegal := fun _ s => exec_of_not_wellFormed s

/-! ### The four ways a command word is answered -/

/-- The command needs a constructed cipher (R174). -/
def NeedsCipher (i : Instr) : Prop := (∃ idx, i = .curblk idx) ∨ i = .inc ∨ ∃ b, i = .xorb b

theorem NeedsCipher.ne_construct (h : NeedsCipher i) (nf : Byte) : i ≠ .construct nf := by
  rintro rfl
  simp [NeedsCipher] at h

/-- No error turns the command away (R136, R174). -/
def Passes (s : State) (i : Instr) : Prop :=
  (∀ nf, i = .construct nf → ¬ NonceError nf s ∧ ¬ KeyError s) ∧ (NeedsCipher i → s.valid = true)

/-- `Verdict s w t r`: the word `w` taken in state `s` is answered `r`, and leads to `t`. -/
inductive Verdict (s : State) (w : Word) (t : State) : Response → Prop
  /-- R175. -/
  | illegal (hd : ∀ i, decode w ≠ .ok i) (hreg : SameRegisters s t) (hport : NoExchange s t) : Verdict s w t ⟨0x08, 0⟩
  /-- R174. -/
  | noCipher (i : Instr) (hd : decode w = .ok i) (hi : NeedsCipher i) (hv : s.valid = false)
      (hreg : SameRegisters s t) (hport : NoExchange s t) : Verdict s w t ⟨0x04, 0⟩
  /-- R173. -/
  | failedConstruct (nf e : Byte) (hd : decode w = .ok (.construct nf)) (h0 : e ≠ 0#8) (h4 : e.toNat < 4)
      (hn : e.getLsbD 0 = true ↔ NonceError nf s) (hk : e.getLsbD 1 = true ↔ KeyError s) (hv : t.valid = false)
      (hz : CipherZero t) (herr : t.err = errBits e) (hstaging : SameStaging s t) (hport : NoExchange s t) :
      Verdict s w t ⟨e, 0⟩
  /-- R82. -/
  | done (i : Instr) (d : Byte) (hd : decode w = .ok i) (hp : Passes s i) : Verdict s w t ⟨0, d⟩

/-- Taking a word and answering it touch the ports alone. -/
theorem sameRegisters_answer : SameRegisters s (State.answer { s with commands := rest } r) :=
  ⟨⟨rfl, rfl, rfl, rfl, rfl⟩, ⟨rfl, rfl, rfl, rfl, rfl, rfl⟩, rfl, rfl⟩

theorem Effect.verdict (h : Effect { s with commands := rest } i t) (hd : decode w = .ok i) :
    ∃ r, t.responses = s.responses ++ [r] ∧ Verdict s w t r := by
  cases h with
  | ldn | ldc | ldk | setnl | setkl | status | destroy =>
    exact ⟨_, rfl, .done _ _ hd ⟨nofun, by simp [NeedsCipher]⟩⟩
  | constructOk nf _ hn hk =>
    exact ⟨_, rfl, .done _ _ hd ⟨fun _ hi => by cases hi; exact ⟨hn, hk⟩, by simp [NeedsCipher]⟩⟩
  | constructError nf e _ h0 h4 hn hk =>
    exact ⟨_, rfl, .failedConstruct nf e hd h0 h4 hn hk rfl (cipherZero_discard s) rfl ⟨rfl, rfl, rfl, rfl, rfl⟩ rfl⟩
  | noCurblk _ _ hv | noInc hv | noXorb _ hv =>
    exact ⟨_, rfl, .noCipher _ hd (by simp [NeedsCipher]) hv sameRegisters_answer rfl⟩
  | curblk _ _ hv | inc hv | xorbBuffered _ hv | xorbEmpty _ hv => exact ⟨_, rfl, .done _ _ hd ⟨nofun, fun _ => hv⟩⟩

/-- A step that finds a word answers it, once. -/
theorem step_verdict (hc : s.commands = w :: rest) :
    ∃ t r, step s = .next t ∧ t.commands = rest ∧ t.responses = s.responses ++ [r] ∧ Verdict s w t r := by
  obtain ⟨i, hd⟩ | ⟨e, he⟩ := decode_ok_or_error w
  · obtain ⟨t, ht, heffect⟩ := exec_effect { s with commands := rest } (wellFormed_of_decode hd)
    obtain ⟨r, hr, hverdict⟩ := heffect.verdict hd
    exact ⟨t, r, (step_command hc hd).trans ht, heffect.commands_eq, hr, hverdict⟩
  · exact ⟨_, _, step_illegal hc he, rfl, rfl, .illegal (by simp [he]) sameRegisters_answer rfl⟩

/-! ### The code, the data and the state (R82, R173 to R175) -/

theorem Verdict.code_eq_zero_iff (h : Verdict s w t r) : r.code = 0 ↔ ∃ i, decode w = .ok i ∧ Passes s i := by
  cases h with
  | illegal hd => simp [hd]
  | noCipher i hd hi hv => simp [hd, Passes, hi, hv]
  | failedConstruct nf e hd h0 h4 hn hk =>
    refine iff_of_false h0 ?_
    rintro ⟨i, hi, hchecks, -⟩
    cases hd.symm.trans hi
    obtain ⟨hno, hko⟩ := hchecks nf rfl
    obtain hbit | hbit := bit_zero_or_one_of_lt_four e h0 h4
    · exact hno (hn.1 hbit)
    · exact hko (hk.1 hbit)
  | done i d hd hp => exact iff_of_true rfl ⟨i, hd, hp⟩

theorem Verdict.data_eq_zero (h : Verdict s w t r) (hne : r.code ≠ 0) : r.data = 0 := by
  cases h with
  | illegal | noCipher | failedConstruct => rfl
  | done => exact absurd rfl hne

/-- `E_STATE` and `E_ILLEGAL` change nothing. -/
theorem Verdict.kept (h : Verdict s w t r) (hcode : r.code = 0x04 ∨ r.code = 0x08) :
    SameRegisters s t ∧ NoExchange s t := by
  cases h with
  | illegal _ hreg hport | noCipher _ _ _ _ hreg hport => exact ⟨hreg, hport⟩
  | failedConstruct _ e _ _ h4 => obtain rfl | rfl : e = 0x04 ∨ e = 0x08 := hcode <;> simp at h4
  | done => simp at hcode

/-- Any other error is of a `CONSTRUCT` and leaves no cipher. -/
theorem Verdict.discarded (h : Verdict s w t r) (h0 : r.code ≠ 0) (h4 : r.code ≠ 0x04) (h8 : r.code ≠ 0x08) :
    t.valid = false ∧ CipherZero t ∧ t.err = r.code.extractLsb' 0 2 ∧ SameStaging s t ∧ NoExchange s t := by
  cases h with
  | illegal => exact absurd rfl h8
  | noCipher => exact absurd rfl h4
  | failedConstruct _ _ _ _ _ _ _ hv hz herr hstaging hport => exact ⟨hv, hz, herr, hstaging, hport⟩
  | done => exact absurd rfl h0

theorem Response.word_toNat (r : Response) : r.word.toNat = r.code.toNat * 2 ^ 8 + r.data.toNat := by
  rw [Response.word, BitVec.toNat_append, ← Nat.shiftLeft_add_eq_or_of_lt r.data.isLt, Nat.shiftLeft_eq]

/-- Settles O10, by what each verdict says of the response and the state. -/
theorem oneResponsePerCommand : Obligations.OneResponsePerCommand := by
  intro s w rest hc
  obtain ⟨t, r, ht, hct, hr, h⟩ := step_verdict hc
  exact ⟨t, r, ht, hct, hr, h.code_eq_zero_iff, h.data_eq_zero, h.kept, h.discarded,
    BitVec.extractLsb'_append_eq_left, BitVec.extractLsb'_append_eq_right, r.word_toNat⟩

/-! ### The bits of the code (R83) -/

/-- The error mask of a failed `CONSTRUCT` has no bit of the other two errors. -/
theorem constructError_code : ∀ e : Byte, e ≠ 0 → e.toNat < 4 →
    e.getLsbD 2 = false ∧ e.getLsbD 3 = false ∧ e ∈ ([0x01, 0x02, 0x03] : List Byte) := by
  decide

theorem Verdict.bit_zero_iff (h : Verdict s w t r) :
    r.code.getLsbD 0 = true ↔ decode w = .ok (.construct 1) ∧ s.nlen.toNat < 8 := by
  cases h with
  | illegal hd => simp [hd]
  | noCipher _ hd hi => simp [hd, hi.ne_construct]
  | failedConstruct _ _ hd _ _ hn =>
    rw [hn]
    simp [hd, NonceError]
  | done i _ hd hp =>
    have hno : ¬ (i = .construct 1 ∧ s.nlen.toNat < 8) := fun ⟨hi, hlt⟩ => (hp.1 1 hi).1 ⟨rfl, hlt⟩
    simpa [hd] using hno

theorem Verdict.bit_one_iff (h : Verdict s w t r) :
    r.code.getLsbD 1 = true ↔ (∃ nf, decode w = .ok (.construct nf)) ∧ KeyError s := by
  cases h with
  | illegal hd => simp [hd]
  | noCipher _ hd hi => simp [hd, hi.ne_construct]
  | failedConstruct _ _ hd _ _ _ hk =>
    rw [hk]
    simp [hd]
  | done i _ hd hp =>
    have hno : ¬ ((∃ nf, i = .construct nf) ∧ KeyError s) := fun ⟨⟨nf, hi⟩, hk⟩ => (hp.1 nf hi).2 hk
    simpa [hd] using hno

theorem Verdict.bit_two_iff (h : Verdict s w t r) :
    r.code.getLsbD 2 = true ↔
      ((∃ idx, decode w = .ok (.curblk idx)) ∨ decode w = .ok .inc ∨ ∃ b, decode w = .ok (.xorb b)) ∧
        s.valid = false := by
  cases h with
  | illegal hd => simp [hd]
  | noCipher _ hd hi hv => simpa [hd, hv, NeedsCipher] using hi
  | failedConstruct _ e hd h0 h4 =>
    obtain ⟨hbit, -, -⟩ := constructError_code e h0 h4
    rw [hbit]
    simp [hd]
  | done _ _ hd hp => simpa [hd, NeedsCipher] using hp.2

theorem Verdict.bit_three_iff (h : Verdict s w t r) : r.code.getLsbD 3 = true ↔ ∀ i, decode w ≠ .ok i := by
  cases h with
  | illegal hd => simpa using hd
  | noCipher _ hd | done _ _ hd => simp [hd]
  | failedConstruct _ e hd h0 h4 =>
    obtain ⟨-, hbit, -⟩ := constructError_code e h0 h4
    rw [hbit]
    simp [hd]

theorem Verdict.code_mem (h : Verdict s w t r) : r.code ∈ ([0x00, 0x01, 0x02, 0x03, 0x04, 0x08] : List Byte) := by
  cases h with
  | illegal | noCipher | done => simp
  | failedConstruct _ e _ h0 h4 =>
    obtain ⟨-, -, he⟩ := constructError_code e h0 h4
    exact List.mem_cons_of_mem _ (List.mem_append_left [0x04, 0x08] he)

/-- The word `w` waiting after reset, with the key length `klen` staged. -/
def resetWith (klen : Byte) (w : Word) : State := { State.reset with klen, commands := [w] }

/-- Settles O11: the bits by the verdicts, and each code by one word from reset. -/
theorem eachErrorBitHasItsCause : Obligations.EachErrorBitHasItsCause := by
  constructor
  · intro s t w rest r hc ht hr
    obtain ⟨t', r', ht', -, hr', h⟩ := step_verdict hc
    cases ht.symm.trans ht'
    cases List.append_cancel_left (hr.symm.trans hr')
    have hhigh : ∀ c ∈ ([0x00, 0x01, 0x02, 0x03, 0x04, 0x08] : List Byte), c.extractLsb' 4 4 = 0 := by decide
    exact ⟨h.bit_zero_iff, h.bit_one_iff, h.bit_two_iff, h.bit_three_iff, hhigh _ h.code_mem, h.code_mem⟩
  · simp only [List.forall_mem_cons]
    exact ⟨⟨resetWith 0 (encode .status), _, 0, rfl, rfl⟩, ⟨resetWith 16 (encode (.construct 1)), _, 0, rfl, rfl⟩,
      ⟨resetWith 0 (encode (.construct 0)), _, 0, rfl, rfl⟩, ⟨resetWith 0 (encode (.construct 1)), _, 0, rfl, rfl⟩,
      ⟨resetWith 0 (encode .inc), _, 0, rfl, rfl⟩, ⟨resetWith 0 0, _, 0, rfl, rfl⟩, nofun⟩

/-! ### The staged key (R56, R92, R112) -/

theorem loadsByte_ldk : LoadsByte .ldk State.k fun _ => () := fun _ _ b _ h hc =>
  ⟨_, (step_encode (i := .ldk _ b) (decide_eq_true h) hc).trans (exec_ldk _ b h), rfl, rfl, rfl⟩

theorem keyBytes_eq_of_getElem {x : Vector Byte 32} {bs : List Byte} (hlen : bs.length ≤ 32)
    (h : ∀ (k : Nat) (_ : k < bs.length), x[k] = bs[k]) : keyBytes x (BitVec.ofNat 8 bs.length) = bs := by
  have hmod : bs.length % 2 ^ 8 = bs.length := Nat.mod_eq_of_lt (by omega)
  refine List.ext_getElem ?_ fun k hk hk' => ?_
  · simp only [keyBytes, List.length_take, Vector.length_toList, BitVec.toNat_ofNat, hmod, Nat.min_eq_left hlen]
  · simp only [keyBytes, List.getElem_take, Vector.getElem_toList, h k hk']

/-- `LOADKEY bs`, for a string that fits: one step per byte and one for the length. -/
theorem run_loadKey {bs : List Byte} (hlen : bs.length ≤ 32) (hc : s.commands = words (loadKey bs) ++ rest) :
    ∃ t, Sys2Proof.core.run (bs.length + 1) s = .next t ∧ t.commands = rest ∧
      t.klen = BitVec.ofNat 8 bs.length ∧ keyBytes t.k t.klen = bs := by
  have hload : loadKey bs = loadFrom .ldk 0 bs ++ [.setkl (BitVec.ofNat 8 bs.length)] := by
    rw [loadKey, List.take_of_length_le hlen, Nat.min_eq_left (by omega)]
  rw [hload, words, List.map_append, List.append_assoc] at hc
  obtain ⟨u, hu, hcu, -, -, hbytes⟩ := run_loadFrom loadsByte_ldk (by decide) bs (by omega) hc
  have hstep := (step_encode rfl hcu).trans (exec_setkl _ _)
  refine ⟨_, (Laws.run_add core _ 1 hu).trans (core_run_next 0 hstep), rfl, rfl, ?_⟩
  exact keyBytes_eq_of_getElem hlen fun k hk => by simpa using hbytes k hk

/-- Settles O21: `CONSTRUCT 0` takes the staged bytes and their number over as the key. -/
theorem stagedKeyReachesThePort : Obligations.StagedKeyReachesThePort := by
  intro s bs hlen hsupported hc
  rw [words, List.map_append] at hc
  obtain ⟨u, hu, hcu, hklen, hkey⟩ := run_loadKey hlen hc
  rw [← hklen] at hsupported
  have hstep := (step_encode rfl hcu).trans
    (exec_construct_ok _ (by decide) (by simp [NonceError]) (by simp [KeyError, hsupported]))
  refine ⟨_, (Laws.run_add core _ 1 hu).trans (core_run_next 0 hstep), rfl, ?_, ?_⟩
  · simp [hklen]
    omega
  · simp [keyBytes_keyCopy, hkey]

end Sys2Proof.Machine
end

section
/-! PROOFS. The statements about operand staging (spec/40_operand_staging.md R110 to R115).

`State.unstaged` is what is left of a state without its staging registers. Two states agree outside those registers when
they have it in common, and no command but `CONSTRUCT` needs more of a state than that (`exec_unstaged`). -/

namespace Sys2Proof.Machine

variable {s t : State} {i : Instr}

/-! ### A state without its staging registers -/

/-- The state with its staging registers zero, and all else as it is. -/
def State.unstaged (s : State) : State :=
  { s with n := State.reset.n, cin := State.reset.cin, k := State.reset.k, nlen := State.reset.nlen,
           klen := State.reset.klen }

theorem unstaged_eq_iff : t.unstaged = s.unstaged ↔
    SameCipher s t ∧ SameFlags s t ∧ t.commands = s.commands ∧ t.responses = s.responses ∧
      t.exchanges = s.exchanges := by
  simp [State.unstaged, SameCipher, SameFlags, and_assoc]

/-- A command that answered and wrote staging registers only. -/
theorem answered_of_unstaged {r : Response} (h : t.unstaged = (s.answer r).unstaged) :
    SameCipher s t ∧ SameFlags s t ∧ Answered s t r.code r.data ∧ NoExchange s t := by
  obtain ⟨hcipher, hflags, hcommands, hresponses, hexchanges⟩ := unstaged_eq_iff.1 h
  exact ⟨hcipher, hflags, ⟨hresponses, hcommands⟩, hexchanges⟩

/-! ### What reads the staging registers (R115(c)) -/

/-- Without `CONSTRUCT`, what a command does outside the staging registers it also does when they are zero. -/
theorem exec_unstaged (hi : ∀ nf, i ≠ .construct nf) (h : exec i s = .next t) :
    ∃ u, exec i s.unstaged = .next u ∧ u.unstaged = t.unstaged := by
  obtain he | ⟨hw, rfl⟩ := exec_cases h
  · cases he with
    | constructOk nf | constructError nf => exact absurd rfl (hi nf)
    | ldn _ b hidx => exact ⟨_, exec_ldn _ b hidx, rfl⟩
    | ldc _ b hidx => exact ⟨_, exec_ldc _ b hidx, rfl⟩
    | ldk _ b hidx => exact ⟨_, exec_ldk _ b hidx, rfl⟩
    | setnl b => exact ⟨_, exec_setnl _ b, rfl⟩
    | setkl b => exact ⟨_, exec_setkl _ b, rfl⟩
    | noCurblk _ hidx hv => exact ⟨_, exec_curblk_not_ready s.unstaged hidx hv, rfl⟩
    | noInc hv => exact ⟨_, exec_inc_not_ready s.unstaged hv, rfl⟩
    | noXorb b hv => exact ⟨_, exec_xorb_not_ready s.unstaged b hv, rfl⟩
    | curblk _ hidx hv => exact ⟨_, exec_curblk_ready s.unstaged hidx hv, rfl⟩
    | inc hv => exact ⟨_, exec_inc_ready s.unstaged hv, rfl⟩
    | xorbBuffered b hv hl => exact ⟨_, exec_xorb_buffered s.unstaged b hv hl, rfl⟩
    | xorbEmpty b hv hl => exact ⟨_, exec_xorb_empty s.unstaged b hv hl, rfl⟩
    | status => exact ⟨_, exec_status _, rfl⟩
    | destroy => exact ⟨_, exec_destroy _, rfl⟩
  · exact ⟨_, exec_of_not_wellFormed _ hw, rfl⟩

/-- Settles O19: both states do what their common unstaged state does. -/
theorem stagingReadOnlyByConstruct : Obligations.StagingReadOnlyByConstruct := by
  intro i s s' t t' hi hcipher hflags hcommands hresponses hexchanges h h'
  have hss : s'.unstaged = s.unstaged := unstaged_eq_iff.2 ⟨hcipher, hflags, hcommands, hresponses, hexchanges⟩
  obtain ⟨u, hu, hut⟩ := exec_unstaged hi h
  obtain ⟨u', hu', hut'⟩ := exec_unstaged hi h'
  rw [hss, hu] at hu'
  cases hu'
  exact unstaged_eq_iff.1 (hut'.symm.trans hut)

/-! ### What the staging commands write (R110 to R114) -/

/-- Writing one byte of a register, read back at any index. -/
theorem getElem_set_byte {size : Nat} (x : Vector Byte size) (idx : Fin size) (b : Byte) (j : Fin size) :
    (x.set idx.val b)[j.val] = if j.val = idx.val then b else x[j.val] := by
  simp only [Vector.getElem_set, eq_comm]

/-- Settles O13: the one register written is `N`, at the index. -/
theorem ldnWritesOneNonceByte : Obligations.LdnWritesOneNonceByte := fun s idx b h =>
  ⟨_, exec_ldn s b h, getElem_set_byte s.n ⟨idx.toNat, h⟩ b, rfl, rfl, rfl, rfl, answered_of_unstaged rfl⟩

/-- Settles O14: the one register written is `CIN`, in the lane of the index. -/
theorem ldcWritesOneCounterLane : Obligations.LdcWritesOneCounterLane := fun s idx b h =>
  ⟨_, exec_ldc s b h, setLane_bit s.cin ⟨idx.toNat, h⟩ b, rfl, rfl, rfl, rfl, answered_of_unstaged rfl⟩

/-- Settles O15: the one register written is `K`, at the index; `KEY` is one of the cipher's. -/
theorem ldkWritesOneKeyByte : Obligations.LdkWritesOneKeyByte := fun s idx b h =>
  ⟨_, exec_ldk s b h, getElem_set_byte s.k ⟨idx.toNat, h⟩ b, rfl, rfl, rfl, rfl, answered_of_unstaged rfl⟩

/-- Settles O16: the one register written is the length named. -/
theorem setLengthsWriteOneRegister : Obligations.SetLengthsWriteOneRegister :=
  ⟨fun s b => ⟨_, exec_setnl s b, rfl, rfl, rfl, rfl, rfl, answered_of_unstaged rfl⟩,
    fun s b => ⟨_, exec_setkl s b, rfl, rfl, rfl, rfl, rfl, answered_of_unstaged rfl⟩⟩

end Sys2Proof.Machine
end

section
/-! PROOFS. The statements about the counter block (spec/41_counter_block_builder.md R120 to R125).

What is said of the bytes of the increment (R124(f)) is a fact about numbers in base 256: the carry into a digit is one
exactly when all the digits below it are 255, for then, and only then, its weight divides the successor. -/

namespace Sys2Proof.Machine

variable {s : State}

/-! ### Building the block (R120) -/

/-- Settles O22: a passing `CONSTRUCT` lays `N` and `CIN` out in its block, and nothing it does afterwards writes the
block. -/
theorem cbbBuildLaysOutTheBlock : Obligations.CbbBuildLaysOutTheBlock := by
  refine ⟨fun s nb c => ⟨fun i => ?_, rfl, fun j => ?_, rfl⟩, fun s t nf hnf hn hk h => ?_, fun _ => rfl⟩
  · simp only [State.cbbBuild_cb, joinBlock_low]
  · simp only [State.cbbBuild_cb, joinBlock_high, be64_get]
  · cases (exec_construct_ok s hnf hn hk).symm.trans h
    exact ⟨rfl, rfl⟩

/-! ### Incrementing the counter (R121, R123) -/

/-- At the wrap the counter half is the encoding of 0. -/
theorem cbbInc_wraps (h : s.ctr = 0xFFFFFFFFFFFFFFFF) :
    s.cbbInc.ctr = 0 ∧ ∀ j : Fin 8, s.cbbInc.cb[8 + j.val] = 0 := by
  have hctr : s.cbbInc.ctr = 0 := by rw [State.cbbInc_ctr, h]; rfl
  refine ⟨hctr, fun j => ?_⟩
  rw [counterEncoded_cbbInc s j, hctr]
  exact BitVec.extractLsb'_zero

/-- Settles O23: by the equations of `CBB_INC`; the exchange of a refill and the pop after it write neither `CTR` nor
`CB`. -/
theorem cbbIncStepsTheCounter : Obligations.CbbIncStepsTheCounter := by
  refine ⟨fun s => ⟨?_, counterEncoded_cbbInc s, sameNonceHalf_cbbInc s, rfl, cbbInc_wraps⟩, exec_inc_ready,
    fun s t b hv hl h => ?_⟩
  · rw [State.cbbInc_ctr, BitVec.toNat_add]
    rfl
  · cases (exec_xorb_empty s b hv hl).symm.trans h
    exact ⟨rfl, rfl⟩

/-- Settles O27: the next state is that of `CBB_INC`, answered. -/
theorem incAddsOneToTheCounter : Obligations.IncAddsOneToTheCounter := fun s hv =>
  ⟨_, exec_inc_ready s hv, rfl, counterEncoded_cbbInc s, sameNonceHalf_cbbInc s, rfl, rfl, rfl, rfl,
    ⟨rfl, rfl, rfl, rfl, rfl⟩, ⟨rfl, rfl⟩, ⟨rfl, rfl⟩, rfl⟩

/-! ### Reading the block (R122) -/

/-- Settles O26: on a live cipher `CURBLK` does nothing but answer. -/
theorem curblkReturnsOneBlockByte : Obligations.CurblkReturnsOneBlockByte := fun s _ h hv =>
  ⟨_, exec_curblk_ready s h hv, sameRegisters_answer (rest := s.commands), ⟨rfl, rfl⟩, rfl⟩

/-! ### The increment seen on the bytes (R124(f)) -/

/-- The weight of a base-256 digit divides `x + 1` exactly when all lower digits of `x` are 255. -/
theorem pow_dvd_succ_iff (x k : Nat) : 256 ^ k ∣ x + 1 ↔ ∀ i < k, x / 256 ^ i % 256 = 255 := by
  induction k with
  | zero => simp
  | succ k ih =>
    rw [Nat.forall_lt_succ_right, ← ih, pow_succ]
    have hdigit (h : 256 ^ k ∣ x + 1) : 256 ^ k * 256 ∣ x + 1 ↔ x / 256 ^ k % 256 = 255 := by
      rw [← Nat.dvd_div_iff_mul_dvd h, Nat.succ_div_of_dvd h]
      omega
    exact ⟨fun h => have hk := dvd_of_mul_right_dvd h; ⟨hk, (hdigit hk).1 h⟩, fun ⟨hk, h⟩ => (hdigit hk).2 h⟩

/-- Byte `k` of a counter is its digit `k` in base 256. -/
theorem toNat_byte (v : Counter) (k : Nat) : (v.extractLsb' (8 * k) 8).toNat = v.toNat / 256 ^ k % 256 := by
  simp [BitVec.extractLsb'_toNat, Nat.shiftRight_eq_div_pow, pow_mul]

/-- The wrap at 2^64 is not seen in the eight digits of the successor. -/
theorem toNat_byte_succ (v : Counter) {k : Nat} (hk : k < 8) :
    ((v + 1).extractLsb' (8 * k) 8).toNat = (v.toNat + 1) / 256 ^ k % 256 := by
  have hpow : 2 ^ 64 = 256 ^ k * 256 ^ (8 - k) := by rw [← pow_add, Nat.add_sub_cancel' hk.le]; rfl
  rw [toNat_byte, BitVec.toNat_add, hpow]
  exact (congrArg (· % 256) (Nat.mod_mul_right_div_self ..)).trans
    (Nat.mod_mod_of_dvd _ (dvd_pow_self 256 (Nat.sub_ne_zero_of_lt hk)))

theorem byte_succ (v : Counter) {k : Nat} (hk : k < 8) :
    (v + 1).extractLsb' (8 * k) 8 =
      if ∀ i < k, v.extractLsb' (8 * i) 8 = 0xFF then v.extractLsb' (8 * k) 8 + 1 else v.extractLsb' (8 * k) 8 := by
  have hcarry : (∀ i < k, v.extractLsb' (8 * i) 8 = 0xFF) ↔ 256 ^ k ∣ v.toNat + 1 := by
    simp only [pow_dvd_succ_iff, ← toNat_byte, ← BitVec.toNat_inj]
    rfl
  simp only [hcarry]
  apply BitVec.eq_of_toNat_eq
  rw [toNat_byte_succ v hk, Nat.succ_div]
  split
  · rw [BitVec.toNat_add, toNat_byte]
    exact (Nat.mod_add_mod ..).symm
  · rw [toNat_byte, Nat.add_zero]

/-- Byte `8 + m` of the block is byte `7 - m` of the counter: the bytes after it are the lower ones. -/
theorem CounterEncoded.byte (hs : CounterEncoded s) (m : Fin 8) :
    s.cb[8 + m.val] = s.ctr.extractLsb' (8 * (7 - m.val)) 8 := by
  rw [hs m, Nat.mul_sub]

/-- Settles O24: the ripple is that of the bytes of the counter, read from the other end. -/
theorem incrementRipplesThroughTheBytes : Obligations.IncrementRipplesThroughTheBytes := by
  intro s hs j
  rw [(counterEncoded_cbbInc s).byte j, State.cbbInc_ctr, byte_succ s.ctr (by omega)]
  simp only [hs.byte]
  refine if_congr ⟨fun h m hm => h _ (by omega), fun h i hi => ?_⟩ rfl rfl
  have hbyte := h ⟨7 - i, by omega⟩ (Nat.lt_sub_of_add_lt (by omega))
  rwa [Nat.sub_sub_self (by omega)] at hbyte

/-! ### Any number of increments (R124(c), R125(b)) -/

/-- One `INC` from the command port of a live cipher performs `CBB_INC` and takes nothing more. -/
theorem step_inc {rest : List Word} (hv : s.valid = true) (hc : s.commands = encode .inc :: rest) :
    ∃ t, step s = .next t ∧ t.valid = true ∧ t.commands = rest ∧ t.ctr = s.ctr + 1 ∧ CounterEncoded t ∧
      SameNonceHalf s t :=
  ⟨_, (step_encode rfl hc).trans (exec_inc_ready _ hv), hv, rfl, rfl, counterEncoded_cbbInc s, sameNonceHalf_cbbInc s⟩

theorem run_incs (n : Nat) (hv : s.valid = true) (hs : CounterEncoded s)
    (hc : s.commands = words (List.replicate n .inc)) :
    ∃ t, Sys2Proof.core.run n s = .next t ∧ t.ctr = s.ctr + BitVec.ofNat 64 n ∧ CounterEncoded t ∧
      SameNonceHalf s t := by
  induction n generalizing s with
  | zero => exact ⟨s, rfl, (BitVec.add_zero _).symm, hs, fun _ => rfl⟩
  | succ n ih =>
    obtain ⟨u, hu, hvu, hcu, hctru, henc, hnu⟩ := step_inc hv hc
    obtain ⟨t, ht, hctr, hcb, hnt⟩ := ih hvu henc hcu
    refine ⟨t, (core_run_next n hu).trans ht, ?_, hcb, fun i => (hnt i).trans (hnu i)⟩
    rw [hctr, hctru, BitVec.add_assoc, Nat.add_comm n, BitVec.ofNat_add]
    rfl

/-- Settles O28: the counter is `c + n` as a 64-bit number, and that is `c` exactly when `n` is 0 as one. -/
theorem repeatedIncAddsN : Obligations.RepeatedIncAddsN := by
  intro n s hv hs hc
  obtain ⟨t, ht, hctr, hcb, hnonce⟩ := run_incs n hv hs hc
  refine ⟨t, ht, ?_, hcb, hnonce, ?_⟩
  · rw [hctr, BitVec.toNat_add, BitVec.toNat_ofNat, Nat.add_mod_mod]
  · rw [hctr, BitVec.add_right_eq_self, ← BitVec.toNat_inj, BitVec.toNat_ofNat, Nat.dvd_iff_mod_eq_zero]
    rfl

end Sys2Proof.Machine
end

section
/-! PROOFS. The statements about the keystream cipher (spec/42_keystream_cipher.md R135 to R146).

A stream is followed by its position (`AtPosition`). `AtPosition.exec_xorb` says what an `XORB` does at a position,
`AtPosition.of_sameCipher` that every other command that keeps the stream stays there; together they are the step lemma
(`AtPosition.step`), and the closed form is its induction over the words waiting. The bytes of a whole `TRANSFORM` are
`xorKeystream`, an involution. -/

namespace Sys2Proof.Machine

variable {s t : State} {i : Instr} {w : Word} {rest : List Word}

/-! ### Construction (R135, R136) -/

/-- Settles O31: a passing `CONSTRUCT` discards, builds the block, copies the key and sets `VALID`. -/
theorem constructBuildsFromStaging : Obligations.ConstructBuildsFromStaging := fun s _ hnf hn hk =>
  ⟨_, exec_construct_ok s hnf hn hk, joinBlock_low s.n (be64 s.cin), rfl, counterEncoded_of_cb rfl,
    keyCopy_get s.k s.klen, by simp [SameStaging, Answered, NoExchange]⟩

/-- What `CONSTRUCT` builds when the error mask is 0. -/
theorem State.constructWith_built {supported : Byte → Bool} {form : NonceForm}
    (he : constructErrors supported form s = 0) :
    s.constructWith supported form =
      (((s.discard.setErr 0).cbbBuild s.n s.cin).takeKey.setValid).answer ⟨0, 0⟩ := by
  simp [State.constructWith, he, errBits]

theorem sameStaging_constructWith (s : State) (supported : Byte → Bool) (form : NonceForm) :
    SameStaging s (s.constructWith supported form) := by
  by_cases he : constructErrors supported form s = 0
  · simp [State.constructWith_built he, SameStaging]
  · simp [s.constructWith_error rfl he, SameStaging]

/-- Every register after `CONSTRUCT` is read from the staging registers (R135(e)). -/
theorem sameRegisters_constructWith {s s' : State} (supported : Byte → Bool) (form : NonceForm)
    (h : SameStaging s s') : SameRegisters (s.constructWith supported form) (s'.constructWith supported form) := by
  obtain ⟨hn, hcin, hk, hnlen, hklen⟩ := h
  have hmask := constructErrors_congr supported form hnlen hklen
  by_cases he : constructErrors supported form s = 0
  · simp [SameRegisters, SameStaging, SameCipher, SameFlags, State.constructWith_built he,
      State.constructWith_built (hmask.trans he), hn, hcin, hk, hnlen, hklen]
  · simp [SameRegisters, SameStaging, SameCipher, SameFlags, s.constructWith_error rfl he,
      s'.constructWith_error hmask he, hn, hcin, hk, hnlen, hklen]

/-- Settles O33: the staging registers are kept, and all registers after a repetition are read from them. -/
theorem constructAndDestroyRepeatIdempotently : Obligations.ConstructAndDestroyRepeatIdempotently := by
  rintro s t t' i (⟨nf, hnf, rfl⟩ | rfl) h h'
  · obtain ⟨form, hform⟩ := exec_construct_uniform_form hnf
    cases (hform s).symm.trans h
    cases (hform _).symm.trans h'
    exact sameRegisters_constructWith _ form (sameStaging_constructWith s _ form)
  · cases (exec_destroy s).symm.trans h
    cases (exec_destroy _).symm.trans h'
    simp [SameRegisters, SameStaging, SameCipher, SameFlags]

/-! ### One `XORB` (R137, R139, R141) -/

/-- Settles O34: the next state is that of the pop, answered. -/
theorem xorbPopsTheBuffer : Obligations.XorbPopsTheBuffer := fun s b hv hl =>
  ⟨_, exec_xorb_buffered s b hv hl, ⟨rfl, rfl⟩, rfl, rfl, rfl, rfl, rfl, rfl, ⟨rfl, rfl, rfl, rfl, rfl⟩,
    ⟨rfl, rfl⟩, rfl⟩

/-- Settles O35: the exchange comes first, so its block is the one before `CBB_INC`. -/
theorem xorbRefillsTheEmptyBuffer : Obligations.XorbRefillsTheEmptyBuffer := fun s b hv hl =>
  ⟨_, _, exec_xorb_empty s b hv hl, rfl, ⟨rfl, rfl⟩, rfl, rfl, rfl, counterEncoded_cbbInc (s.exchange Config.blkEnc),
    sameNonceHalf_cbbInc s, rfl, rfl, ⟨rfl, rfl, rfl, rfl, rfl⟩, ⟨rfl, rfl⟩, rfl⟩

/-- The input byte of `XORB` is used in the answer alone (R141). -/
theorem exec_xorb_ready (s : State) (b : Byte) (hv : s.valid = true) :
    exec (.xorb b) s = .next ((s.refillIfEmpty Config.blkEnc).pop.answer
      ⟨0, b ^^^ (s.refillIfEmpty Config.blkEnc).front⟩) := by
  simp [exec, execXorb, s.whenReady_ready hv, State.xorbWith]

/-- A refill leaves what was issued and what was answered. -/
theorem State.refillIfEmpty_ports (enc : List Byte → Block → Block) (s : State) :
    (s.refillIfEmpty enc).responses = s.responses ∧ (s.refillIfEmpty enc).commands = s.commands := by
  unfold State.refillIfEmpty
  split <;> exact ⟨rfl, rfl⟩

/-- Settles O37: the two next states differ in the last answer alone, and there the keystream byte cancels. -/
theorem inputByteReachesOnlyTheOutput : Obligations.InputByteReachesOnlyTheOutput := by
  intro s t t' b b' hv h h'
  cases (exec_xorb_ready s b hv).symm.trans h
  cases (exec_xorb_ready s b' hv).symm.trans h'
  obtain ⟨hresponses, hcommands⟩ := s.refillIfEmpty_ports Config.blkEnc
  refine ⟨⟨⟨rfl, rfl, rfl, rfl, rfl⟩, ⟨rfl, rfl, rfl, rfl, rfl, rfl⟩, rfl, rfl⟩, rfl,
    b ^^^ (s.refillIfEmpty Config.blkEnc).front, b' ^^^ (s.refillIfEmpty Config.blkEnc).front, ?_, ?_, ?_⟩
  · simp [Answered, hresponses, hcommands]
  · simp [Answered, hresponses, hcommands]
  · rw [BitVec.xor_comm b', BitVec.xor_assoc, ← BitVec.xor_assoc _ _ b', BitVec.xor_self, BitVec.zero_xor]

/-! ### The block-cipher port (R64 to R66, R138) -/

theorem isXorb_iff : isXorb w = true ↔ ∃ b, decode w = .ok (.xorb b) := by
  unfold isXorb
  split <;> simp_all

/-- The command makes an exchange: an `XORB` on a live cipher whose buffer is empty (R138). -/
def Refills (s : State) (i : Instr) : Prop := (∃ b, i = .xorb b) ∧ s.valid = true ∧ s.kslen = 0

/-- A refill makes one exchange, whose output is the new `KS`. -/
theorem Effect.exchange_of_refills (h : Effect s i t) (hr : Refills s i) :
    ∃ e, t.exchanges = s.exchanges ++ [e] ∧ e.block = s.cb ∧ e.keylen = s.keylen ∧ e.out = t.ks := by
  obtain ⟨⟨b, rfl⟩, hv, hl⟩ := hr
  cases h with
  | noXorb _ hno => simp [hv] at hno
  | xorbBuffered _ _ hne => simp [hl] at hne
  | xorbEmpty => exact ⟨_, rfl, rfl, rfl, rfl⟩

/-- No other command makes an exchange or generates keystream. -/
theorem Effect.noExchange_of_not_refills (h : Effect s i t) (hr : ¬ Refills s i) :
    NoExchange s t ∧ (t.ks = s.ks ∨ t.ks = Vector.replicate 16 0) := by
  cases h with
  | xorbEmpty b hv hl => exact absurd ⟨⟨b, rfl⟩, hv, hl⟩ hr
  | constructOk | constructError | destroy => simp [NoExchange]
  | ldn | ldc | ldk | setnl | setkl | noCurblk | noInc | noXorb | curblk | inc | xorbBuffered | status =>
    exact ⟨rfl, .inl rfl⟩

/-- Settles O36: an illegal word makes no exchange, and of the effects one does. -/
theorem exchangeOnlyWhenXorbFindsEmptyBuffer : Obligations.ExchangeOnlyWhenXorbFindsEmptyBuffer := by
  intro s t w rest hc h
  simp only [isXorb_iff]
  obtain ⟨i, hd⟩ | ⟨e, he⟩ := decode_ok_or_error w
  · have heffect := effect_of_exec (wellFormed_of_decode hd) ((step_command hc hd).symm.trans h)
    simp only [hd, Except.ok.injEq]
    split
    next hr => exact heffect.exchange_of_refills hr
    next hr => exact heffect.noExchange_of_not_refills hr
  · cases (step_illegal hc he).symm.trans h
    simp [he]

/-! ### The position in a stream (R38, R140) -/

variable {key : List Byte} {nb : Vector Byte 8} {c0 : Counter} {p : Nat}

/-- The position is read from the registers of the cipher and `VALID`. -/
theorem AtPosition.of_sameCipher (h : AtPosition key nb c0 p s) (hc : SameCipher s t) (hv : t.valid = s.valid) :
    AtPosition key nb c0 p t := by
  obtain ⟨hcb, hctr, hkey, hkeylen, hks, hkslen⟩ := hc
  simpa only [AtPosition, hcb, hctr, hkey, hkeylen, hks, hkslen, hv] using h

/-- Settles O38: at position 0 the counter is the start counter and the buffer is empty. -/
theorem constructStartsTheStream : Obligations.ConstructStartsTheStream := by
  intro s t nf hnf hn hk h
  cases (exec_construct_ok s hnf hn hk).symm.trans h
  exact ⟨rfl, keyBytes_keyCopy s.k s.klen, (BitVec.add_zero _).symm, rfl, rfl, fun hne => absurd rfl hne⟩

/-- The block that holds `Z(p)`, the output of counter `c0 + floor(p/16)` (R140). -/
def keystreamBlock (key : List Byte) (nb : Vector Byte 8) (c0 : Counter) (p : Nat) : Block :=
  Config.blkEnc key (joinBlock nb (be64 (c0 + BitVec.ofNat 64 (p / 16))))

/-- `Z(p)` at its place in the block, however the index is written. -/
theorem keystreamByte_eq {j : Nat} (hj : j < 16) (h : j = p % 16) :
    keystreamByte key nb c0 p = (keystreamBlock key nb c0 p)[j] := by
  subst h
  rfl

/-- Within a block, the buffer holds the byte `Z(p)` and the pop moves to the next position. -/
theorem AtPosition.pop (h : AtPosition key nb c0 p s) (hl : s.kslen.val ≠ 0) :
    s.ks[16 - s.kslen.val] = keystreamByte key nb c0 p ∧ AtPosition key nb c0 (p + 1) s.pop := by
  obtain ⟨hv, hkey, hctr, hcb, hkslen, hks⟩ := h
  constructor
  · rw [keystreamByte_eq (by omega) (show 16 - s.kslen.val = p % 16 by omega)]
    simp only [hks hl, keystreamBlock]
  · refine ⟨hv, hkey, ?_, hcb, ?_, fun hl' => ?_⟩
    · rw [show (p + 1 + 15) / 16 = (p + 15) / 16 by omega]
      exact hctr
    · rw [State.pop_kslen, popped_val]
      omega
    · rw [State.pop_kslen, popped_val] at hl'
      rw [show (p + 1) / 16 = p / 16 by omega]
      exact hks hl

/-- On a block boundary, the refill gives the block of `Z(p)`, and the pop after it moves to the next position. -/
theorem AtPosition.refill_pop (h : AtPosition key nb c0 p s) (hl : s.kslen = 0) :
    (Config.blkEnc (keyBytes s.key s.keylen) s.cb)[0] = keystreamByte key nb c0 p ∧
      AtPosition key nb c0 (p + 1) (s.exchange Config.blkEnc).cbbInc.pop := by
  obtain ⟨hv, hkey, hctr, hcb, hkslen, -⟩ := h
  have hp : p % 16 = 0 := by
    have : s.kslen.val = 0 := by rw [hl]; rfl
    omega
  rw [show (p + 15) / 16 = p / 16 by omega] at hctr
  have hblock : Config.blkEnc (keyBytes s.key s.keylen) s.cb = keystreamBlock key nb c0 p := by
    rw [hkey, hcb, hctr, keystreamBlock]
  constructor
  · rw [keystreamByte_eq (by decide) hp.symm, hblock]
  · refine ⟨hv, hkey, ?_, ?_, ?_, fun _ => ?_⟩
    · rw [show (p + 1 + 15) / 16 = p / 16 + 1 by omega, BitVec.ofNat_add, ← BitVec.add_assoc, ← hctr]
      rfl
    · simp [hcb]
    · simp
      omega
    · rw [show (p + 1) / 16 = p / 16 by omega]
      exact hblock

/-- An `XORB` at position `p` uses `Z(p)`. -/
theorem AtPosition.exec_xorb (h : AtPosition key nb c0 p s) (b : Byte) :
    ∃ t, exec (.xorb b) s = .next t ∧ AtPosition key nb c0 (p + 1) t ∧
      Answered s t 0x00 (b ^^^ keystreamByte key nb c0 p) := by
  have hv : s.valid = true := h.1
  by_cases hl : s.kslen = 0
  · obtain ⟨hz, hnext⟩ := h.refill_pop hl
    exact ⟨_, exec_xorb_empty s b hv hl, hnext, by rw [hz]; exact ⟨rfl, rfl⟩⟩
  · have hl' : s.kslen.val ≠ 0 := fun h0 => hl (Fin.ext h0)
    obtain ⟨hz, hnext⟩ := h.pop hl'
    exact ⟨_, exec_xorb_buffered s b hv hl', hnext, by rw [hz]; exact ⟨rfl, rfl⟩⟩

/-! ### One word of a stream -/

theorem keepsStream_iff : keepsStream w = true ↔
    decode w ≠ .ok .inc ∧ (∀ nf, decode w ≠ .ok (.construct nf)) ∧ decode w ≠ .ok .destroy := by
  unfold keepsStream
  split <;> simp_all

/-- Only `XORB`, `INC`, `CONSTRUCT` and `DESTROY` write the registers of the cipher (R20). -/
theorem Effect.sameCipher (h : Effect s i t) (hx : ∀ b, i ≠ .xorb b) (hi : i ≠ .inc) (hc : ∀ nf, i ≠ .construct nf)
    (hd : i ≠ .destroy) : SameCipher s t := by
  cases h with
  | noXorb b | xorbBuffered b | xorbEmpty b => exact absurd rfl (hx b)
  | noInc | inc => exact absurd rfl hi
  | constructOk nf | constructError nf => exact absurd rfl (hc nf)
  | destroy => exact absurd rfl hd
  | ldn | ldc | ldk | setnl | setkl | noCurblk | curblk | status => exact ⟨rfl, rfl, rfl, rfl, rfl, rfl⟩

theorem AtPosition.step_xorb (h : AtPosition key nb c0 p s) {b : Byte} (hc : s.commands = w :: rest)
    (hd : decode w = .ok (.xorb b)) :
    ∃ t, step s = .next t ∧ t.commands = rest ∧ AtPosition key nb c0 (p + 1) t ∧
      t.responses = s.responses ++ [⟨0x00, b ^^^ keystreamByte key nb c0 p⟩] := by
  have hrest : AtPosition key nb c0 p { s with commands := rest } := h
  obtain ⟨t, ht, hnext, hr, hct⟩ := hrest.exec_xorb b
  exact ⟨t, (step_command hc hd).trans ht, hct, hnext, hr⟩

/-- A word that keeps the stream and is no `XORB`, an illegal one among them, leaves the position. -/
theorem AtPosition.step_other (h : AtPosition key nb c0 p s) (hc : s.commands = w :: rest)
    (hk : keepsStream w = true) (hx : isXorb w = false) :
    ∃ t r, step s = .next t ∧ t.commands = rest ∧ AtPosition key nb c0 p t ∧ t.responses = s.responses ++ [r] := by
  obtain ⟨t, r, ht, hct, hr, -⟩ := step_verdict hc
  refine ⟨t, r, ht, hct, ?_, hr⟩
  obtain ⟨i, hd⟩ | ⟨e, he⟩ := decode_ok_or_error w
  · have heffect := effect_of_exec (wellFormed_of_decode hd) ((step_command hc hd).symm.trans ht)
    have hx' : ¬ ∃ b, decode w = .ok (.xorb b) := by simp [← isXorb_iff, hx]
    rw [keepsStream_iff] at hk
    simp only [hd, ne_eq, Except.ok.injEq, not_exists] at hk hx'
    obtain ⟨hinc, hconstruct, hdestroy⟩ := hk
    exact h.of_sameCipher (heffect.sameCipher hx' hinc hconstruct hdestroy) (heffect.sameFlags hconstruct hdestroy).1
  · cases (step_illegal hc he).symm.trans ht
    exact h

/-- One word of a stream: the position counts the `XORB` commands, and each is answered with its keystream byte. -/
theorem AtPosition.step (h : AtPosition key nb c0 p s) (hc : s.commands = w :: rest) (hk : keepsStream w = true) :
    ∃ t r, step s = .next t ∧ t.commands = rest ∧ AtPosition key nb c0 (p + xorbCount [w]) t ∧
      t.responses = s.responses ++ [r] ∧
      ∀ b, decode w = .ok (.xorb b) → r = ⟨0x00, b ^^^ keystreamByte key nb c0 p⟩ := by
  cases hx : isXorb w with
  | true =>
    obtain ⟨b, hd⟩ := isXorb_iff.1 hx
    obtain ⟨t, ht, hct, hnext, hr⟩ := h.step_xorb hc hd
    refine ⟨t, _, ht, hct, by simpa [xorbCount, hx] using hnext, hr, fun b' hd' => ?_⟩
    cases hd.symm.trans hd'
    rfl
  | false =>
    obtain ⟨t, r, ht, hct, hsame, hr⟩ := h.step_other hc hk hx
    refine ⟨t, r, ht, hct, by simpa [xorbCount, hx] using hsame, hr, fun b hd => ?_⟩
    simp [isXorb_iff.2 ⟨b, hd⟩] at hx

/-- Settles O39: the position counts the word when it is an `XORB`. -/
theorem stepKeepsTheStreamPosition : Obligations.StepKeepsTheStreamPosition := by
  intro key nb c0 p s w rest h hc hk
  obtain ⟨t, r, ht, hct, hpos, hr, hbyte⟩ := h.step hc hk
  refine ⟨t, ht, hct, fun b hd => ⟨?_, ?_⟩, fun hx => ?_⟩
  · simpa [xorbCount, isXorb_iff.2 ⟨b, hd⟩] using hpos
  · rw [hr, hbyte b hd]
  · simpa [xorbCount, hx] using hpos

/-! ### A stream of words (R140, R61(c)) -/

theorem xorbCount_cons (w : Word) (ws : List Word) : xorbCount (w :: ws) = xorbCount [w] + xorbCount ws :=
  List.countP_append (l₁ := [w])

/-- The words at the front of the command port, run from position `p`: one response each, and those of the `XORB`
commands by the closed form. -/
theorem AtPosition.run (ws : List Word) (h : AtPosition key nb c0 p s) (hc : s.commands = ws ++ rest)
    (hk : ∀ w ∈ ws, keepsStream w = true) :
    ∃ t rs, Sys2Proof.core.run ws.length s = .next t ∧ t.commands = rest ∧
      AtPosition key nb c0 (p + xorbCount ws) t ∧ t.responses = s.responses ++ rs ∧ rs.length = ws.length ∧
      ∀ (m : Nat) (w : Word) (b : Byte), ws[m]? = some w → decode w = .ok (.xorb b) →
        rs[m]? = some ⟨0x00, b ^^^ keystreamByte key nb c0 (p + xorbCount (ws.take m))⟩ := by
  induction ws generalizing s p with
  | nil => exact ⟨s, [], rfl, hc, h, (List.append_nil _).symm, rfl, nofun⟩
  | cons w ws ih =>
    obtain ⟨hkw, hkws⟩ := List.forall_mem_cons.1 hk
    obtain ⟨u, r, hu, hcu, hposu, hru, hbyte⟩ := h.step hc hkw
    obtain ⟨t, rs, ht, hct, hpos, hr, hlen, hbytes⟩ := ih hposu hcu hkws
    refine ⟨t, r :: rs, (core_run_next _ hu).trans ht, hct, ?_, ?_, congrArg (· + 1) hlen, fun m v b hm hd => ?_⟩
    · rwa [xorbCount_cons, ← Nat.add_assoc]
    · rw [hr, hru, List.append_assoc]
      rfl
    · cases m with
      | zero =>
        cases hm
        rw [hbyte b hd]
        rfl
      | succ m =>
        rw [List.take_succ_cons, xorbCount_cons, ← Nat.add_assoc]
        exact hbytes m v b hm hd

/-- Settles O40: the run of the whole queue. -/
theorem keystreamHasClosedForm : Obligations.KeystreamHasClosedForm :=
  fun _ _ _ _ s h => h.run s.commands (List.append_nil _).symm

/-- Settles O43: 2^68 bytes later the block number is 2^64 more, which is the same counter. -/
theorem keystreamRepeatsAfterTheWrap : Obligations.KeystreamRepeatsAfterTheWrap := by
  intro key nb c0 p
  have hcounter : BitVec.ofNat 64 ((p + 16 * 2 ^ 64) / 16) = BitVec.ofNat 64 (p / 16) := by
    apply BitVec.eq_of_toNat_eq
    rw [BitVec.toNat_ofNat, BitVec.toNat_ofNat]
    omega
  rw [keystreamByte_eq (Nat.mod_lt p (by decide)) (by omega), keystreamBlock, hcounter]
  rfl

/-! ### `TRANSFORM` (R142 to R145) -/

/-- The output bytes of `TRANSFORM xs` from position `p`: each byte XOR its own byte of the keystream. -/
def xorKeystream (key : List Byte) (nb : Vector Byte 8) (c0 : Counter) (p : Nat) : List Byte → List Byte
  | [] => []
  | b :: xs => (b ^^^ keystreamByte key nb c0 p) :: xorKeystream key nb c0 (p + 1) xs

@[simp] theorem length_xorKeystream (xs : List Byte) : (xorKeystream key nb c0 p xs).length = xs.length := by
  induction xs generalizing p with
  | nil => rfl
  | cons b xs ih => exact congrArg (· + 1) ih

/-- Cutting the input cuts the output. -/
theorem xorKeystream_append (xs ys : List Byte) : xorKeystream key nb c0 p (xs ++ ys) =
    xorKeystream key nb c0 p xs ++ xorKeystream key nb c0 (p + xs.length) ys := by
  induction xs generalizing p with
  | nil => rfl
  | cons b xs ih =>
    rw [List.length_cons, Nat.add_comm xs.length, ← Nat.add_assoc]
    exact congrArg (_ :: ·) ih

/-- The same keystream takes itself away (R144). -/
@[simp] theorem xorKeystream_xorKeystream (xs : List Byte) :
    xorKeystream key nb c0 p (xorKeystream key nb c0 p xs) = xs := by
  induction xs generalizing p with
  | nil => rfl
  | cons b xs ih => simp [xorKeystream, ih]

theorem AtPosition.run_transform (xs : List Byte) (h : AtPosition key nb c0 p s)
    (hc : s.commands = words (transform xs) ++ rest) :
    ∃ t, Sys2Proof.core.run xs.length s = .next t ∧ t.commands = rest ∧
      AtPosition key nb c0 (p + xs.length) t ∧
      t.responses = s.responses ++ okResponses (xorKeystream key nb c0 p xs) := by
  induction xs generalizing s p with
  | nil => exact ⟨s, rfl, hc, h, (List.append_nil _).symm⟩
  | cons b xs ih =>
    obtain ⟨u, hu, hcu, hposu, hru⟩ := h.step_xorb hc (decode_encode rfl)
    obtain ⟨t, ht, hct, hpos, hr⟩ := ih hposu hcu
    refine ⟨t, (core_run_next _ hu).trans ht, hct, ?_, ?_⟩
    · rwa [List.length_cons, Nat.add_comm xs.length, ← Nat.add_assoc]
    · rw [hr, hru, List.append_assoc]
      rfl

/-- Words that keep the stream and hold no `XORB` leave the position, with one response each. -/
theorem AtPosition.run_between (ws : List Word) (h : AtPosition key nb c0 p s) (hc : s.commands = ws ++ rest)
    (hk : ∀ w ∈ ws, keepsStream w = true ∧ isXorb w = false) :
    ∃ t rs, Sys2Proof.core.run ws.length s = .next t ∧ t.commands = rest ∧ AtPosition key nb c0 p t ∧
      t.responses = s.responses ++ rs ∧ rs.length = ws.length := by
  obtain ⟨t, rs, ht, hct, hpos, hr, hlen, -⟩ := h.run ws hc fun w hw => (hk w hw).1
  have hcount : xorbCount ws = 0 := List.countP_eq_zero.2 fun w hw => by simp [(hk w hw).2]
  rw [hcount] at hpos
  exact ⟨t, rs, ht, hct, hpos, hr, hlen⟩

/-- Settles O41: the second chunk starts at the position where the first ended, in both runs. -/
theorem chunkingDoesNotChangeTheOutput : Obligations.ChunkingDoesNotChangeTheOutput := by
  intro key nb c0 p s s' x₁ x₂ between h h' hk hc hc'
  obtain ⟨t, ht, -, -, hr⟩ := h.run_transform (x₁ ++ x₂) (hc.trans (List.append_nil _).symm)
  rw [List.append_assoc] at hc'
  obtain ⟨u, hu, hcu, hposu, hru⟩ := h'.run_transform x₁ hc'
  obtain ⟨v, other, hv, hcv, hposv, hrv, hlen⟩ := hposu.run_between between hcu hk
  obtain ⟨t', ht', -, -, hr'⟩ := hposv.run_transform x₂ (hcv.trans (List.append_nil _).symm)
  refine ⟨t, t', xorKeystream key nb c0 p x₁, xorKeystream key nb c0 (p + x₁.length) x₂, other, ?_, ?_,
    length_xorKeystream _, hlen, length_xorKeystream _, ?_, ?_⟩
  · rwa [← List.length_append]
  · calc Sys2Proof.core.run (x₁.length + between.length + x₂.length) s'
      _ = Sys2Proof.core.run x₂.length v := Laws.run_add core _ _ ((Laws.run_add core _ _ hu).trans hv)
      _ = .next t' := ht'
  · rw [hr, xorKeystream_append]
  · rw [hr', hrv, hru]

/-- A passing `CONSTRUCT` and a `TRANSFORM`: the staged key, nonce and counter give the keystream. -/
theorem run_construct_transform {nf : Byte} (hnf : nf.toNat < 2) (hn : ¬ NonceError nf s) (hk : ¬ KeyError s)
    (xs : List Byte) (hc : s.commands = words (.construct nf :: transform xs)) :
    ∃ t, Sys2Proof.core.run (1 + xs.length) s = .next t ∧ t.responses =
      s.responses ++ ⟨0x00, 0x00⟩ :: okResponses (xorKeystream (keyBytes s.k s.klen) s.n s.cin 0 xs) := by
  have hexec := exec_construct_ok { s with commands := words (transform xs) } hnf hn hk
  have hstep := (step_encode (i := .construct nf) (decide_eq_true hnf) hc).trans hexec
  have hstart := constructStartsTheStream { s with commands := words (transform xs) } _ nf hnf hn hk hexec
  obtain ⟨t, ht, -, -, hr⟩ := hstart.run_transform xs (List.append_nil _).symm
  refine ⟨t, (Laws.run_add core 1 _ (core_run_next 0 hstep)).trans ht, ?_⟩
  rw [hr]
  exact List.append_assoc ..

/-- Settles O42: both streams are of the same key, nonce and counter, so the second takes away what the first added. -/
theorem transformTwiceGivesTheInputBack : Obligations.TransformTwiceGivesTheInputBack := by
  intro s s' nf input hnf hn hk ⟨hN, hcin, hK, hnlen, hklen⟩ hc
  obtain ⟨t, ht, hr⟩ := run_construct_transform hnf hn hk input hc
  refine ⟨t, _, ht, length_xorKeystream _, hr, fun hc' => ?_⟩
  have hn' : ¬ NonceError nf s' := by rwa [NonceError, hnlen]
  have hk' : ¬ KeyError s' := by rwa [KeyError, hklen]
  simpa only [length_xorKeystream, hN, hcin, hK, hklen, xorKeystream_xorKeystream] using
    run_construct_transform hnf hn' hk' _ hc'

end Sys2Proof.Machine
end

section
/-! PROOFS. The statements about the system commands (spec/43_system.md R160, R161).

What is said of the bits of `STATUS`'s data byte comes from the three fields of the status view (`statusView_kslen`,
`statusView_err`, `statusView_valid`), and what is said of its value from their sum (`statusView_toNat`). -/

namespace Sys2Proof.Machine

variable {s t : State}

/-! ### The fields of the status view (R35) -/

/-- `data[7:3]` is `KSLEN`: the other two fields are below 8. -/
theorem statusView_kslen (s : State) : ((statusView s).extractLsb' 3 5).toNat = s.kslen.val := by
  have hkslen := s.kslen.isLt
  have herr := s.err.isLt
  have hvalid := s.valid.toNat_lt
  rw [BitVec.extractLsb'_toNat, statusView_toNat, Nat.shiftRight_eq_div_pow]
  omega

/-- `data[2:1]` is `ERR`: `VALID` is below 2, and `KSLEN` counts eights. -/
theorem statusView_err (s : State) : (statusView s).extractLsb' 1 2 = s.err := by
  have herr := s.err.isLt
  have hvalid := s.valid.toNat_lt
  apply BitVec.eq_of_toNat_eq
  rw [BitVec.extractLsb'_toNat, statusView_toNat, Nat.shiftRight_eq_div_pow]
  omega

theorem statusView_err_bit (s : State) (j : Fin 2) : (statusView s).getLsbD (1 + j.val) = s.err.getLsbD j.val := by
  rw [← statusView_err, BitVec.getLsbD_extractLsb', decide_eq_true j.isLt, Bool.true_and]

/-- `data[0]` is `VALID`: the other two fields count even numbers. -/
theorem statusView_valid (s : State) : (statusView s).getLsbD 0 = s.valid := by
  have hparity : (statusView s).toNat % 2 = s.valid.toNat := by
    have hvalid := s.valid.toNat_lt
    rw [statusView_toNat]
    omega
  rw [BitVec.getLsbD, Nat.testBit_zero, hparity]
  cases s.valid <;> rfl

/-! ### `STATUS` (R160) -/

/-- Settles O44: the answer is the status view, and the next state is the answer and nothing else. -/
theorem statusReturnsTheStatusView : Obligations.StatusReturnsTheStatusView := fun s =>
  ⟨_, statusView s, exec_status s, ⟨rfl, rfl⟩, sameRegisters_answer, rfl, statusView_kslen s,
    statusView_err_bit s 1, statusView_err_bit s 0, statusView_valid s⟩

theorem eq_statusView_of_answered {d : Byte} (h : exec .status s = .next t) (ha : Answered s t 0x00 d) :
    d = statusView s := by
  obtain ⟨hr, -⟩ := ha
  simpa using hr.symm.trans (exec_status_responses h)

/-- With a live cipher `ERR` is 0, and at most 15 bytes are buffered; without one nothing is buffered. -/
theorem State.Inv.statusView_le (h : s.Inv) : (statusView s).toNat ≤ 0x79 := by
  rw [statusView_toNat]
  cases hv : s.valid with
  | true =>
    have hle := h.kslen_le
    have herr : s.err.toNat = 0 := congrArg BitVec.toNat (h.live hv).err
    rw [herr, Bool.toNat_true]
    omega
  | false =>
    obtain ⟨hzero, -⟩ := h
    have herr := s.err.isLt
    rw [(hzero hv).kslen_eq, Fin.val_zero, Bool.toNat_false]
    omega

/-- Settles O45: the invariants bound the status view, and leave no error bit beside `VALID`. -/
theorem statusDataIsBounded : Obligations.StatusDataIsBounded := by
  intro s t d hs h ha
  obtain rfl := eq_statusView_of_answered h ha
  refine ⟨hs.statusView_le, fun hd => ?_⟩
  rw [statusView_valid] at hd
  rw [statusView_err, (hs.live hd).err]

/-! ### `DESTROY` (R161) -/

/-- Settles O46: `DESTROY` is the discarding of the cipher with `ERR` cleared, and the discarding writes no port and no
staging register. -/
theorem destroyClearsTheCipher : Obligations.DestroyClearsTheCipher := fun s =>
  ⟨_, exec_destroy s, rfl, rfl, cipherZero_discard s, cipherZero_discard s, ⟨rfl, rfl⟩, ⟨rfl, rfl, rfl, rfl, rfl⟩,
    ⟨rfl, rfl⟩, rfl⟩

end Sys2Proof.Machine
end

section
/-! PROOFS. The statements about errors and totality (spec/60_exceptions.md R173 to R175, R177, R186): what the block
does when it is given no command, no legal one, or one that an error turns away, and that every step has an outcome. -/

namespace Sys2Proof.Machine

/-! ### Every step has an outcome (R177, R186) -/

/-- Settles O7: of the three things a step can be, two take a command word. -/
theorem idleStepChangesNothing : Obligations.IdleStepChangesNothing := by
  intro s hc
  obtain ⟨-, hs⟩ | ⟨_, _, _, hcons, -⟩ | ⟨_, _, _, hcons, -⟩ := step_cases s
  · exact hs
  all_goals cases hc.symm.trans hcons

/-- A well-formed term has an effect, any other is answered like an illegal word. -/
theorem exec_answers_next (i : Instr) (s : State) : ∃ t, exec i s = .next t := by
  cases hw : wellFormed i with
  | true =>
    obtain ⟨t, ht, -⟩ := exec_effect s hw
    exact ⟨t, ht⟩
  | false => exact ⟨_, exec_of_not_wellFormed s hw⟩

/-- Settles O8: a step idles, answers an illegal word, or is the `exec` of a command. -/
theorem stepAlwaysAnswersNext : Obligations.StepAlwaysAnswersNext := by
  refine ⟨fun s => ?_, exec_answers_next⟩
  obtain ⟨-, hs⟩ | ⟨_, _, _, -, -, hs⟩ | ⟨_, rest, i, -, -, hs⟩ := step_cases s
  · exact ⟨s, hs⟩
  · exact ⟨_, hs⟩
  · rw [hs]
    exact exec_answers_next i _

/-! ### The errors (R173 to R175) -/

/-- Settles O9: a word that matches no row of the mask table fails to decode, and `VALID` is not looked at. -/
theorem illegalWordChangesNothing : Obligations.IllegalWordChangesNothing := by
  refine ⟨fun s w rest hc hw => ?_, rfl⟩
  obtain hd | ⟨e, he⟩ := decode_ok_or_error w
  · exact absurd ((decodes_iff_pattern w).1 hd) hw
  · exact step_illegal hc he

/-- Settles O29: each of the three commands is turned away by its check of `VALID`. -/
theorem noCipherAnswersStateError : Obligations.NoCipherAnswersStateError := by
  refine ⟨?_, rfl⟩
  rintro s i hv (⟨idx, hidx, rfl⟩ | rfl | ⟨b, rfl⟩)
  · exact exec_curblk_not_ready s hidx hv
  · exact exec_inc_not_ready s hv
  · exact exec_xorb_not_ready s b hv

/-- Settles O32: the next state is that of the discarding with `ERR` written, answered with the error mask. -/
theorem failedConstructDestroysTheCipher : Obligations.FailedConstructDestroysTheCipher := by
  intro s nf hnf he
  obtain ⟨e, hexec, -, hlt, hnonce, hkey⟩ := exec_construct_error s hnf he
  exact ⟨_, e, hexec, ⟨rfl, rfl⟩, hnonce, hkey, hlt, rfl, cipherZero_discard s, rfl, ⟨rfl, rfl, rfl, rfl, rfl⟩, rfl⟩

end Sys2Proof.Machine
end

section
/-! PROOFS. The statement about reset (spec/70_reset_and_hazards.md R200, R201; spec/10_state.md R20). -/

namespace Sys2Proof.Machine

/-- Settles O12: the reset event keeps only the records of responses and exchanges (log entry 10), so both states have
the registers and the command port of `State.reset`. -/
theorem resetLeavesEveryRegisterZero : Obligations.ResetLeavesEveryRegisterZero := by
  rintro s r (rfl | rfl)
  all_goals exact ⟨rfl, rfl, rfl, rfl, rfl, rfl, rfl, rfl, rfl, rfl, rfl, rfl, rfl, rfl⟩

end Sys2Proof.Machine
end
